-- ==== Sys2Proof/Word.lean ====
section
/-! DEFINITION. The word types of the block (R8, R10): bytes, and the level of a line. -/

namespace Sys2Proof

/-- Every register, latch, control word, vector and data value is 8 bits (R8). -/
abbrev Byte := BitVec 8

/-- The electrical level of one line: `true` is level 1, `false` is level 0 (R10, R13). -/
abbrev Level := Bool

end Sys2Proof
end

