-- ==== Sys2Proof/Config.lean ====
section
/-! DEFINITION. What an implementation fixes (R7) and the free values the spec leaves open.
The parameters `CHAIN`, `ADDR_ORDER`, the clock rates and `DART_READ_RESETS_POINTER` are plain data held in the state
(no step changes them), so that a statement about every state holds for every configuration. -/

namespace Sys2Proof

/-- `ADDR_ORDER` (R7, R82): which bit of the 2-bit offset selects control/data and which selects B/A. -/
inductive AddrOrder where
  /-- offset bit 1 is control/data, bit 0 is B/A -/
  | cdBa
  /-- offset bit 1 is B/A, bit 0 is control/data -/
  | baCd
deriving DecidableEq, Repr

/-- The parameters of one PIO chip (R7). No rule's result depends on a rate. -/
structure PioConfig where
  order   : AddrOrder
  clockHz : Nat
  /-- `PIO_POLL_HZ` is a positive rational: its numerator. -/
  pollNum : Nat
  /-- `PIO_POLL_HZ`: its denominator. -/
  pollDen : Nat
deriving DecidableEq, Repr

/-- The parameters of one DART chip (R7). A fixed rate of 0 means driven by external pulses. -/
structure DartConfig where
  order   : AddrOrder
  clockHz : Nat
  rxHzA   : Nat
  txHzA   : Nat
  rxHzB   : Nat
  txHzB   : Nat
deriving DecidableEq, Repr

/-- The byte of the n-th draw of "any value" (R230, R245, R352). FREE VALUE (log entry 9): it has no body, so no proof
can depend on which byte it is. -/
opaque Config.freeByte : Nat → Byte

/-- `FIFO_DEPTH`, fixed by the source (R7). -/
def Config.fifoDepth : Nat := 3

end Sys2Proof
end

