-- ==== Sys2Proof/Syntax.lean ====
section
/-! DEFINITION. The instructions of the block: one constructor per row of spec/opcode_table.json, and the operations as
the agents issue them (R9, R15, R123). `k` is always the position in `CHAIN` of the chip acted on. -/

namespace Sys2Proof

/-- Port or channel A or B: "prioritized by their fixed index (port/channel A before B)" (R25, R40). -/
inductive Side where
  | a
  | b
deriving DecidableEq, Repr

/-- The mode of a PIO port (R25). -/
inductive Mode where
  | output
  | input
  | bidir
  | bitctl
deriving DecidableEq, Repr

/-- The control-word decode state of a PIO port (R22, R151). -/
inductive Cws where
  | normal
  | setDir
  | setMask
deriving DecidableEq, Repr

/-- One constructor per row of the opcode table. The operands are the fields of the row's encoding; `x` is a field that
is not examined. -/
inductive Instr where
  /-- BUS_WRITE, R84, R110: `1cbdddddddd` after the offset decode. -/
  | busWrite (k : Nat) (selC selB : Bool) (d : Byte)
  /-- BUS_READ, R83, R110: `0cb`. -/
  | busRead (k : Nat) (selC selB : Bool)
  /-- PIO_VECTOR_WORD, R152: `vvvvvvv0`. -/
  | pioVectorWord (k : Nat) (p : Side) (v : BitVec 7)
  /-- PIO_MODE_OUTPUT, R153: `00xx1111`. -/
  | pioModeOutput (k : Nat) (p : Side) (x : BitVec 2)
  /-- PIO_MODE_INPUT, R154: `01xx1111`. -/
  | pioModeInput (k : Nat) (p : Side) (x : BitVec 2)
  /-- PIO_MODE_BIDIR, R155: `10xx1111`. -/
  | pioModeBidir (k : Nat) (p : Side) (x : BitVec 2)
  /-- PIO_MODE_BITCTL, R156: `11xx1111`. -/
  | pioModeBitctl (k : Nat) (p : Side) (x : BitVec 2)
  /-- PIO_INT_CONTROL_WORD, R157: `eahm0111`. -/
  | pioIntControlWord (k : Nat) (p : Side) (ei ao hl mf : Bool)
  /-- PIO_RESERVED_1, R159: `xxxx0001`. -/
  | pioReserved1 (k : Nat) (p : Side) (x : BitVec 4)
  /-- PIO_RESERVED_3, R159: `xxxx0011`. -/
  | pioReserved3 (k : Nat) (p : Side) (x : BitVec 4)
  /-- PIO_RESERVED_5, R159: `xxxx0101`. -/
  | pioReserved5 (k : Nat) (p : Side) (x : BitVec 4)
  /-- PIO_RESERVED_9, R159: `xxxx1001`. -/
  | pioReserved9 (k : Nat) (p : Side) (x : BitVec 4)
  /-- PIO_RESERVED_B, R159: `xxxx1011`. -/
  | pioReservedB (k : Nat) (p : Side) (x : BitVec 4)
  /-- PIO_RESERVED_D, R159: `xxxx1101`. -/
  | pioReservedD (k : Nat) (p : Side) (x : BitVec 4)
  /-- PIO_DIRECTION_BYTE, R160. -/
  | pioDirectionByte (k : Nat) (p : Side) (d : Byte)
  /-- PIO_MASK_BYTE, R161. -/
  | pioMaskByte (k : Nat) (p : Side) (m : Byte)
  /-- PIO_CONTROL_READ, R165. -/
  | pioControlRead (k : Nat) (p : Side)
  /-- PIO_DATA_WRITE_OUT, R171. -/
  | pioDataWriteOut (k : Nat) (p : Side) (d : Byte)
  /-- PIO_DATA_READ_OUT, R176. -/
  | pioDataReadOut (k : Nat) (p : Side)
  /-- PIO_DATA_WRITE_IN, R172. -/
  | pioDataWriteIn (k : Nat) (p : Side) (d : Byte)
  /-- PIO_DATA_READ_IN, R177. -/
  | pioDataReadIn (k : Nat) (p : Side)
  /-- PIO_DATA_WRITE_BIDIR, R173. -/
  | pioDataWriteBidir (k : Nat) (p : Side) (d : Byte)
  /-- PIO_DATA_READ_BIDIR, R178. -/
  | pioDataReadBidir (k : Nat) (p : Side)
  /-- PIO_DATA_WRITE_BITCTL, R174. -/
  | pioDataWriteBitctl (k : Nat) (p : Side) (d : Byte)
  /-- PIO_DATA_READ_BITCTL, R179. -/
  | pioDataReadBitctl (k : Nat) (p : Side)
  /-- PIO_STROBE_OUT, R192. -/
  | pioStrobeOut (k : Nat) (p : Side) (l : Level)
  /-- PIO_STROBE_IN, R193. -/
  | pioStrobeIn (k : Nat) (p : Side) (l : Level)
  /-- PIO_STROBE_BIDIR_A, R194: port A's strobe. -/
  | pioStrobeBidirA (k : Nat) (l : Level)
  /-- PIO_STROBE_B_WHILE_A_BIDIR, R195: port B's strobe. -/
  | pioStrobeBWhileABidir (k : Nat) (l : Level)
  /-- PIO_STROBE_BITCTL, R196. -/
  | pioStrobeBitctl (k : Nat) (p : Side) (l : Level)
  /-- PIO_POLL_TICK, R200. -/
  | pioPollTick (k : Nat)
  /-- DART_WR0_NULL, R213: `xx000ppp`. -/
  | dartWr0Null (k : Nat) (c : Side) (x : BitVec 2) (ptr : BitVec 3)
  /-- DART_WR0_CMD1_NO_FUNCTION, R213: `xx001ppp`. -/
  | dartWr0Cmd1 (k : Nat) (c : Side) (x : BitVec 2) (ptr : BitVec 3)
  /-- DART_WR0_RESET_EXT_STATUS, R214: `xx010ppp`. -/
  | dartWr0ResetExtStatus (k : Nat) (c : Side) (x : BitVec 2) (ptr : BitVec 3)
  /-- DART_WR0_CHANNEL_RESET, R215: `xx011ppp`. -/
  | dartWr0ChannelReset (k : Nat) (c : Side) (x : BitVec 2) (ptr : BitVec 3)
  /-- DART_WR0_ENABLE_INT_NEXT_RX, R216: `xx100ppp`. -/
  | dartWr0EnableIntNextRx (k : Nat) (c : Side) (x : BitVec 2) (ptr : BitVec 3)
  /-- DART_WR0_CMD5_NO_EFFECT, R217: `xx101ppp`. -/
  | dartWr0Cmd5 (k : Nat) (c : Side) (x : BitVec 2) (ptr : BitVec 3)
  /-- DART_WR0_ERROR_RESET, R218: `xx110ppp`. -/
  | dartWr0ErrorReset (k : Nat) (c : Side) (x : BitVec 2) (ptr : BitVec 3)
  /-- DART_WR0_RETURN_FROM_INT, R219: `xx111ppp`. -/
  | dartWr0ReturnFromInt (k : Nat) (c : Side) (x : BitVec 2) (ptr : BitVec 3)
  /-- DART_WR1, R221. -/
  | dartWr1 (k : Nat) (c : Side) (v : Byte)
  /-- DART_WR2, R222. -/
  | dartWr2 (k : Nat) (c : Side) (v : Byte)
  /-- DART_WR3, R223. -/
  | dartWr3 (k : Nat) (c : Side) (v : Byte)
  /-- DART_WR4, R223. -/
  | dartWr4 (k : Nat) (c : Side) (v : Byte)
  /-- DART_WR5, R224. -/
  | dartWr5 (k : Nat) (c : Side) (v : Byte)
  /-- DART_WR6_WR7_DISCARD, R225. -/
  | dartWr6Wr7Discard (k : Nat) (c : Side) (x : Byte)
  /-- DART_READ_RR0, R227. -/
  | dartReadRr0 (k : Nat) (c : Side)
  /-- DART_READ_RR1, R228. -/
  | dartReadRr1 (k : Nat) (c : Side)
  /-- DART_READ_RR2, R229: channel B. -/
  | dartReadRr2 (k : Nat)
  /-- DART_READ_RESERVED, R230. -/
  | dartReadReserved (k : Nat) (c : Side)
  /-- DART_DATA_WRITE, R240. -/
  | dartDataWrite (k : Nat) (c : Side) (d : Byte)
  /-- DART_DATA_READ, R245. -/
  | dartDataRead (k : Nat) (c : Side)
  /-- DART_RECEIVE_DATA, R248. -/
  | dartReceiveData (k : Nat) (c : Side) (d : Byte)
  /-- DART_CTS_W, R261. -/
  | dartCtsW (k : Nat) (c : Side) (l : Level)
  /-- DART_DCD_W, R262. -/
  | dartDcdW (k : Nat) (c : Side) (l : Level)
  /-- DART_RI_W, R263. -/
  | dartRiW (k : Nat) (c : Side) (l : Level)
  /-- DART_RXCA_W, R283. -/
  | dartRxcaW (k : Nat)
  /-- DART_TXCA_W, R284. -/
  | dartTxcaW (k : Nat)
  /-- DART_RXTXCB_W, R285. -/
  | dartRxtxcbW (k : Nat)
  /-- IRQ_STATE, R324. -/
  | irqState (k : Nat)
  /-- IRQ_ACK, R325. -/
  | irqAck (k : Nat)
  /-- IRQ_RETI, R327. -/
  | irqReti (k : Nat)
  /-- CHAIN_INT, R351. -/
  | chainInt
  /-- CHAIN_ACK, R352. -/
  | chainAck
  /-- CHAIN_RETI, R354. -/
  | chainReti
  /-- RESET_PIO, R380. -/
  | resetPio (k : Nat)
  /-- RESET_DART, R383. -/
  | resetDart (k : Nat)
deriving DecidableEq, Repr

/-- An operation as an agent issues it (R9, R15, R123). Which row of the opcode table it is depends on the state
(R130, R131): `decodeRequest` says which. -/
inductive Request where
  /-- the bits of one bus access of R110 after the offset decode, lowest byte first -/
  | busWord (k : Nat) (bits : List Byte)
  /-- `W off, byte` (R84, R135) -/
  | write (k : Nat) (off : BitVec 2) (v : Byte)
  /-- `R off` (R83, R135) -/
  | read (k : Nat) (off : BitVec 2)
  /-- `control_write(x, v)` (R15, R81) -/
  | controlWrite (k : Nat) (x : Side) (v : Byte)
  /-- `control_read(x)` -/
  | controlRead (k : Nat) (x : Side)
  /-- `data_write(x, v)` -/
  | dataWrite (k : Nat) (x : Side) (v : Byte)
  /-- `data_read(x)` -/
  | dataRead (k : Nat) (x : Side)
  /-- `strobe(p, level)` (R190) -/
  | strobe (k : Nat) (p : Side) (l : Level)
  /-- `poll_tick()` (R200) -/
  | pollTick (k : Nat)
  /-- `receive_data(c, byte)` (R248) -/
  | receiveData (k : Nat) (c : Side) (v : Byte)
  /-- `cts_w(c, level)` (R261) -/
  | ctsW (k : Nat) (c : Side) (l : Level)
  /-- `dcd_w(c, level)` (R262) -/
  | dcdW (k : Nat) (c : Side) (l : Level)
  /-- `ri_w(c, level)` (R263) -/
  | riW (k : Nat) (c : Side) (l : Level)
  /-- `rxca_w()` (R283) -/
  | rxcaW (k : Nat)
  /-- `txca_w()` (R284) -/
  | txcaW (k : Nat)
  /-- `rxtxcb_w()` (R285) -/
  | rxtxcbW (k : Nat)
  /-- `irq_state()` of one chip (R324) -/
  | irqState (k : Nat)
  /-- `irq_ack()` of one chip (R325) -/
  | irqAck (k : Nat)
  /-- `irq_reti()` of one chip (R327) -/
  | irqReti (k : Nat)
  /-- `chain_int()` (R351) -/
  | chainInt
  /-- `chain_ack()` (R352) -/
  | chainAck
  /-- `chain_reti()` (R354) -/
  | chainReti
  /-- `reset` of one chip (R380, R383) -/
  | reset (k : Nat)
deriving DecidableEq, Repr

/-- What the environment does that is no row of the opcode table: it changes what a sampled pin shows (`PortRead`,
`RxD`: R11, R85, R86), and the fixed-rate clock timers of R286 tick. -/
inductive EnvEvent where
  | setPins (k : Nat) (p : Side) (v : Byte)
  | setRxd (k : Nat) (c : Side) (l : Level)
  | rxTimer (k : Nat) (c : Side)
  | txTimer (k : Nat) (c : Side)
deriving DecidableEq, Repr

/-- One input of the machine. -/
inductive Input where
  | agent (r : Request)
  | env (e : EnvEvent)
deriving DecidableEq, Repr

/-- What the decoder reads of one chip (R82, R130, R131): its kind, its address order, and the state that selects the
meaning of an access. -/
inductive ChipView where
  | pio (order : AddrOrder) (modeA modeB : Mode) (cwsA cwsB : Cws)
  | dart (order : AddrOrder) (ptrA ptrB : BitVec 3)
deriving DecidableEq, Repr

/-! The pseudo-operations of R136: the spec's shorthand, each the list of operations it expands to. -/

/-- `pio_set_mode(p, Output)` -/
def Request.pioSetOutput (k : Nat) (p : Side) : List Request := [.controlWrite k p 0x0F#8]
/-- `pio_set_mode(p, Input)` -/
def Request.pioSetInput (k : Nat) (p : Side) : List Request := [.controlWrite k p 0x4F#8]
/-- `pio_set_mode(A, Bidirectional)` -/
def Request.pioSetBidir (k : Nat) : List Request := [.controlWrite k .a 0x8F#8]
/-- `pio_set_mode(p, BitControl, d)` -/
def Request.pioSetBitctl (k : Nat) (p : Side) (d : Byte) : List Request :=
  [.controlWrite k p 0xCF#8, .controlWrite k p d]
/-- `pio_set_vector(p, v)`, v even -/
def Request.pioSetVector (k : Nat) (p : Side) (v : Byte) : List Request := [.controlWrite k p v]
/-- `pio_set_icw(p, ei, ao, hl)` -/
def Request.pioSetIcw (k : Nat) (p : Side) (ei ao hl : Bool) : List Request :=
  [.controlWrite k p (BitVec.ofBool ei ++ BitVec.ofBool ao ++ BitVec.ofBool hl ++ 0b00111#5)]
/-- `pio_set_icw_mask(p, ei, ao, hl, m)` -/
def Request.pioSetIcwMask (k : Nat) (p : Side) (ei ao hl : Bool) (m : Byte) : List Request :=
  [.controlWrite k p (BitVec.ofBool ei ++ BitVec.ofBool ao ++ BitVec.ofBool hl ++ 0b10111#5), .controlWrite k p m]
/-- `dart_wr(c, n, v)`, n in 1 to 5 -/
def Request.dartWr (k : Nat) (c : Side) (n : BitVec 3) (v : Byte) : List Request :=
  [.controlWrite k c (n.setWidth 8), .controlWrite k c v]
/-- `dart_cmd(c, k)` -/
def Request.dartCmd (k : Nat) (c : Side) (cmd : BitVec 3) : List Request :=
  [.controlWrite k c (0#2 ++ cmd ++ 0#3)]
/-- `dart_rr(c, n)`, n in 1 to 2 -/
def Request.dartRr (k : Nat) (c : Side) (n : BitVec 3) : List Request :=
  [.controlWrite k c (n.setWidth 8), .controlRead k c]
/-- `strobe_pulse(p)` -/
def Request.strobePulse (k : Nat) (p : Side) : List Request := [.strobe k p false, .strobe k p true]
/-- `rx_clocks(n)` on channel A -/
def Request.rxClocks (k n : Nat) : List Request := List.replicate n (.rxcaW k)

end Sys2Proof
end

