-- ==== Sys2Proof/WellFormed.lean ====
section
/-! DEFINITION. Which instructions are well formed over a given chain: the position names a chip of CHAIN, the chip is of
the kind the row is about, and the two Bidirectional data forms name port A (R170, R175: "only p == A can have this
mode"). Everything else a field can hold is accepted (R125, R340). -/

namespace Sys2Proof

/-- What kind of chip an instruction acts on. -/
inductive Operand where
  | anyChip (k : Nat)
  | pioChip (k : Nat)
  | dartChip (k : Nat)
  | wholeChain
deriving DecidableEq, Repr

/-- The chip an instruction acts on, as the table's rows say ("chip is a PIO", "chip is a DART", "any chip of CHAIN"). -/
def Instr.operand : Instr → Operand
  | .busWrite k _ _ _ => .anyChip k
  | .busRead k _ _ => .anyChip k
  | .pioVectorWord k _ _ => .pioChip k
  | .pioModeOutput k _ _ => .pioChip k
  | .pioModeInput k _ _ => .pioChip k
  | .pioModeBidir k _ _ => .pioChip k
  | .pioModeBitctl k _ _ => .pioChip k
  | .pioIntControlWord k _ _ _ _ _ => .pioChip k
  | .pioReserved1 k _ _ => .pioChip k
  | .pioReserved3 k _ _ => .pioChip k
  | .pioReserved5 k _ _ => .pioChip k
  | .pioReserved9 k _ _ => .pioChip k
  | .pioReservedB k _ _ => .pioChip k
  | .pioReservedD k _ _ => .pioChip k
  | .pioDirectionByte k _ _ => .pioChip k
  | .pioMaskByte k _ _ => .pioChip k
  | .pioControlRead k _ => .pioChip k
  | .pioDataWriteOut k _ _ => .pioChip k
  | .pioDataReadOut k _ => .pioChip k
  | .pioDataWriteIn k _ _ => .pioChip k
  | .pioDataReadIn k _ => .pioChip k
  | .pioDataWriteBidir k _ _ => .pioChip k
  | .pioDataReadBidir k _ => .pioChip k
  | .pioDataWriteBitctl k _ _ => .pioChip k
  | .pioDataReadBitctl k _ => .pioChip k
  | .pioStrobeOut k _ _ => .pioChip k
  | .pioStrobeIn k _ _ => .pioChip k
  | .pioStrobeBidirA k _ => .pioChip k
  | .pioStrobeBWhileABidir k _ => .pioChip k
  | .pioStrobeBitctl k _ _ => .pioChip k
  | .pioPollTick k => .pioChip k
  | .dartWr0Null k _ _ _ => .dartChip k
  | .dartWr0Cmd1 k _ _ _ => .dartChip k
  | .dartWr0ResetExtStatus k _ _ _ => .dartChip k
  | .dartWr0ChannelReset k _ _ _ => .dartChip k
  | .dartWr0EnableIntNextRx k _ _ _ => .dartChip k
  | .dartWr0Cmd5 k _ _ _ => .dartChip k
  | .dartWr0ErrorReset k _ _ _ => .dartChip k
  | .dartWr0ReturnFromInt k _ _ _ => .dartChip k
  | .dartWr1 k _ _ => .dartChip k
  | .dartWr2 k _ _ => .dartChip k
  | .dartWr3 k _ _ => .dartChip k
  | .dartWr4 k _ _ => .dartChip k
  | .dartWr5 k _ _ => .dartChip k
  | .dartWr6Wr7Discard k _ _ => .dartChip k
  | .dartReadRr0 k _ => .dartChip k
  | .dartReadRr1 k _ => .dartChip k
  | .dartReadRr2 k => .dartChip k
  | .dartReadReserved k _ => .dartChip k
  | .dartDataWrite k _ _ => .dartChip k
  | .dartDataRead k _ => .dartChip k
  | .dartReceiveData k _ _ => .dartChip k
  | .dartCtsW k _ _ => .dartChip k
  | .dartDcdW k _ _ => .dartChip k
  | .dartRiW k _ _ => .dartChip k
  | .dartRxcaW k => .dartChip k
  | .dartTxcaW k => .dartChip k
  | .dartRxtxcbW k => .dartChip k
  | .irqState k => .anyChip k
  | .irqAck k => .anyChip k
  | .irqReti k => .anyChip k
  | .chainInt => .wholeChain
  | .chainAck => .wholeChain
  | .chainReti => .wholeChain
  | .resetPio k => .pioChip k
  | .resetDart k => .dartChip k

/-- The position in CHAIN that an operand names; the chain operations name none. -/
def Operand.position : Operand → Option Nat
  | .anyChip k => some k
  | .pioChip k => some k
  | .dartChip k => some k
  | .wholeChain => none

/-- The operand names a chip of the chain, of the right kind. -/
def Operand.inChain (vs : List ChipView) : Operand → Bool
  | .anyChip k => vs[k]?.isSome
  | .pioChip k => match vs[k]? with
    | some (.pio ..) => true
    | _ => false
  | .dartChip k => match vs[k]? with
    | some (.dart ..) => true
    | _ => false
  | .wholeChain => true

/-- Only port A can be in Bidirectional mode (R26), so the Bidirectional data forms name port A. -/
def Instr.portFits : Instr → Bool
  | .pioDataWriteBidir _ p _ => p == .a
  | .pioDataReadBidir _ p => p == .a
  | _ => true

/-- An instruction that can be performed on a chain of these chips. -/
def Instr.wellFormed (vs : List ChipView) (i : Instr) : Bool :=
  i.operand.inChain vs && i.portFits

end Sys2Proof
end

