-- ==== Sys2Proof/Decode.lean ====
section
/-! DEFINITION. From the bits and operations at the block's interface to instructions (spec/30_encoding.md), total, with
named rejections; then the encoder, written from the same tables. The meaning of a control byte depends on the decode
state (R130, R131), so a byte is decoded at a `Slot`: the register it is written to together with that state. -/

namespace Sys2Proof

/-- Why something at the interface is no instruction. -/
inductive Reject where
  /-- the position is outside CHAIN -/
  | noSuchChip (k : Nat)
  /-- the chip at that position is of the other kind -/
  | wrongKind (k : Nat)
  /-- the bits are not a bus word of R110, or not one byte at a byte-wide register (R89) -/
  | badBusWord
deriving DecidableEq, Repr

/-- Where the bits of a table row go, with the state that selects the row (R110, R130, R131, R170). -/
inductive Slot where
  | bus (k : Nat)
  | pioControl (k : Nat) (p : Side) (cws : Cws)
  | pioData (k : Nat) (p : Side) (mode : Mode)
  | dartControl (k : Nat) (c : Side) (ptr : BitVec 3)
  | dartData (k : Nat) (c : Side)
deriving DecidableEq, Repr

/-- `sel_b`: 0 is A, 1 is B (R82). -/
def Side.ofBit (b : Bool) : Side := if b then .b else .a

/-- The `sel_b` bit of a side (R82). -/
def Side.toBit : Side → Bool
  | .a => false
  | .b => true

/-- The offset decode of R82: `(sel_c, sel_b)`. -/
def decodeOffset (o : AddrOrder) (off : BitVec 2) : Bool × Bool :=
  match o with
  | .cdBa => (off.getLsbD 1, off.getLsbD 0)
  | .baCd => (off.getLsbD 0, off.getLsbD 1)

/-- The offset that R82 decodes to `(sel_c, sel_b)`. -/
def encodeOffset (o : AddrOrder) (selC selB : Bool) : BitVec 2 :=
  match o with
  | .cdBa => BitVec.ofBool selC ++ BitVec.ofBool selB
  | .baCd => BitVec.ofBool selB ++ BitVec.ofBool selC

/-! The byte formats of R111 and R42, as functions of their fields. -/

/-- `vvvvvvv0` (R111). -/
def vectorByte (v : BitVec 7) : Byte := v ++ 0#1
/-- `M1 M0 x x 1111` (R111, R114). -/
def modeByte (m : BitVec 2) (x : BitVec 2) : Byte := m ++ x ++ 0xF#4
/-- `EI AO HL MF 0111` (R111, R116). -/
def icwByte (ei ao hl mf : Bool) : Byte :=
  BitVec.ofBool ei ++ BitVec.ofBool ao ++ BitVec.ofBool hl ++ BitVec.ofBool mf ++ 0x7#4
/-- `xxxx nnnn` (R111). -/
def reservedByte (x n : BitVec 4) : Byte := x ++ n
/-- `xx kkk ppp` (R42, R212). -/
def wr0Byte (x : BitVec 2) (cmd : BitVec 3) (ptr : BitVec 3) : Byte := x ++ cmd ++ ptr

/-- The mode field selects the row (R114). -/
def decodeModeWord (k : Nat) (p : Side) (b : Byte) : Instr :=
  let x := b.extractLsb' 4 2
  match b.extractLsb' 6 2 with
  | 0b00#2 => .pioModeOutput k p x
  | 0b01#2 => .pioModeInput k p x
  | 0b10#2 => .pioModeBidir k p x
  | _ => .pioModeBitctl k p x

/-- The control byte map of R120, by decode state (R130). -/
def decodePioControl (k : Nat) (p : Side) (cws : Cws) (b : Byte) : Instr :=
  match cws with
  | .setDir => .pioDirectionByte k p b
  | .setMask => .pioMaskByte k p b
  | .normal =>
    match b.extractLsb' 0 4 with
    | 0xF#4 => decodeModeWord k p b
    | 0x7#4 => .pioIntControlWord k p (b.getLsbD 7) (b.getLsbD 6) (b.getLsbD 5) (b.getLsbD 4)
    | 0x1#4 => .pioReserved1 k p (b.extractLsb' 4 4)
    | 0x3#4 => .pioReserved3 k p (b.extractLsb' 4 4)
    | 0x5#4 => .pioReserved5 k p (b.extractLsb' 4 4)
    | 0x9#4 => .pioReserved9 k p (b.extractLsb' 4 4)
    | 0xB#4 => .pioReservedB k p (b.extractLsb' 4 4)
    | 0xD#4 => .pioReservedD k p (b.extractLsb' 4 4)
    | _ => .pioVectorWord k p (b.extractLsb' 1 7)

/-- A byte written to a PIO data register (R170). -/
def decodePioDataWrite (k : Nat) (p : Side) (m : Mode) (b : Byte) : Instr :=
  match m with
  | .output => .pioDataWriteOut k p b
  | .input => .pioDataWriteIn k p b
  | .bidir => .pioDataWriteBidir k p b
  | .bitctl => .pioDataWriteBitctl k p b

/-- A read of a PIO data register (R175). -/
def decodePioDataRead (k : Nat) (p : Side) (m : Mode) : Instr :=
  match m with
  | .output => .pioDataReadOut k p
  | .input => .pioDataReadIn k p
  | .bidir => .pioDataReadBidir k p
  | .bitctl => .pioDataReadBitctl k p

/-- The strobe dispatch of R190: port B's strobe serves port A while port A is Bidirectional. -/
def decodeStrobe (k : Nat) (p : Side) (modeA modeB : Mode) (l : Level) : Instr :=
  match p with
  | .a =>
    match modeA with
    | .output => .pioStrobeOut k .a l
    | .input => .pioStrobeIn k .a l
    | .bidir => .pioStrobeBidirA k l
    | .bitctl => .pioStrobeBitctl k .a l
  | .b =>
    match modeA with
    | .bidir => .pioStrobeBWhileABidir k l
    | _ =>
      match modeB with
      | .output => .pioStrobeOut k .b l
      | .input => .pioStrobeIn k .b l
      | .bidir => .pioStrobeBitctl k .b l
      | .bitctl => .pioStrobeBitctl k .b l

/-- A byte written to a DART control register goes to the register the pointer selects (R121, R122, R131). -/
def decodeDartControl (k : Nat) (c : Side) (ptr : BitVec 3) (b : Byte) : Instr :=
  match ptr with
  | 0#3 =>
    let x := b.extractLsb' 6 2
    let n := b.extractLsb' 0 3
    match b.extractLsb' 3 3 with
    | 0#3 => .dartWr0Null k c x n
    | 1#3 => .dartWr0Cmd1 k c x n
    | 2#3 => .dartWr0ResetExtStatus k c x n
    | 3#3 => .dartWr0ChannelReset k c x n
    | 4#3 => .dartWr0EnableIntNextRx k c x n
    | 5#3 => .dartWr0Cmd5 k c x n
    | 6#3 => .dartWr0ErrorReset k c x n
    | _ => .dartWr0ReturnFromInt k c x n
  | 1#3 => .dartWr1 k c b
  | 2#3 => .dartWr2 k c b
  | 3#3 => .dartWr3 k c b
  | 4#3 => .dartWr4 k c b
  | 5#3 => .dartWr5 k c b
  | _ => .dartWr6Wr7Discard k c b

/-- A read of a DART control register, by the same pointer (R226). -/
def decodeDartControlRead (k : Nat) (c : Side) (ptr : BitVec 3) : Instr :=
  match ptr with
  | 0#3 => .dartReadRr0 k c
  | 1#3 => .dartReadRr1 k c
  | 2#3 =>
    match c with
    | .b => .dartReadRr2 k
    | .a => .dartReadReserved k .a
  | _ => .dartReadReserved k c

/-- One bus access in whole bytes, lowest first (R110): one byte `00000 0cb` is a read, two bytes with the high one
`00000 1cb` a write; a set bit above the row's width is no bus word (log entry 21). -/
def decodeBusWord (k : Nat) : List Byte → Except Reject Instr
  | [b] =>
    if b.extractLsb' 2 6 = 0#6 then .ok (.busRead k (b.getLsbD 1) (b.getLsbD 0)) else .error .badBusWord
  | [d, b] =>
    if b.extractLsb' 2 6 = 1#6 then .ok (.busWrite k (b.getLsbD 1) (b.getLsbD 0) d) else .error .badBusWord
  | _ => .error .badBusWord

/-- The decoder on bytes: total, at any slot. A register location takes exactly one byte (R89). -/
def decodeBytes : Slot → List Byte → Except Reject Instr
  | .bus k, bs => decodeBusWord k bs
  | .pioControl k p cws, [b] => .ok (decodePioControl k p cws b)
  | .pioData k p m, [b] => .ok (decodePioDataWrite k p m b)
  | .dartControl k c ptr, [b] => .ok (decodeDartControl k c ptr b)
  | .dartData k c, [b] => .ok (.dartDataWrite k c b)
  | _, _ => .error .badBusWord

/-! What the decoder reads of the chain. -/

/-- The mode of port `p`, from the two ports' modes. -/
def Side.pick {α : Type} (s : Side) (x y : α) : α :=
  match s with
  | .a => x
  | .b => y

/-- The address order of a chip. -/
def ChipView.order : ChipView → AddrOrder
  | .pio o _ _ _ _ => o
  | .dart o _ _ => o

/-- The operation needs some chip at position `k`. -/
def withChip (vs : List ChipView) (k : Nat) (f : ChipView → Except Reject Instr) : Except Reject Instr :=
  match vs[k]? with
  | none => .error (.noSuchChip k)
  | some v => f v

/-- The operation exists on PIO chips only. -/
def onlyPio (vs : List ChipView) (k : Nat) (i : Instr) : Except Reject Instr :=
  withChip vs k fun
    | .pio .. => .ok i
    | .dart .. => .error (.wrongKind k)

/-- The operation exists on DART chips only. -/
def onlyDart (vs : List ChipView) (k : Nat) (i : Instr) : Except Reject Instr :=
  withChip vs k fun
    | .pio .. => .error (.wrongKind k)
    | .dart .. => .ok i

/-- The slot a control write of `x` goes to on this chip (R130, R131). -/
def ChipView.controlSlot (k : Nat) (x : Side) : ChipView → Slot
  | .pio _ _ _ cwsA cwsB => .pioControl k x (x.pick cwsA cwsB)
  | .dart _ ptrA ptrB => .dartControl k x (x.pick ptrA ptrB)

/-- The slot a data write of `x` goes to on this chip. -/
def ChipView.dataSlot (k : Nat) (x : Side) : ChipView → Slot
  | .pio _ modeA modeB _ _ => .pioData k x (x.pick modeA modeB)
  | .dart _ _ _ => .dartData k x

/-- Which row of the opcode table an operation is, in a chain that shows `vs`. -/
def decodeRequest (vs : List ChipView) : Request → Except Reject Instr
  | .busWord k bits => withChip vs k fun _ => decodeBytes (.bus k) bits
  | .write k off v => withChip vs k fun w =>
      let sel := decodeOffset w.order off
      .ok (.busWrite k sel.1 sel.2 v)
  | .read k off => withChip vs k fun w =>
      let sel := decodeOffset w.order off
      .ok (.busRead k sel.1 sel.2)
  | .controlWrite k x v => withChip vs k fun w => decodeBytes (w.controlSlot k x) [v]
  | .controlRead k x => withChip vs k fun
      | .pio .. => .ok (.pioControlRead k x)
      | .dart _ ptrA ptrB => .ok (decodeDartControlRead k x (x.pick ptrA ptrB))
  | .dataWrite k x v => withChip vs k fun w => decodeBytes (w.dataSlot k x) [v]
  | .dataRead k x => withChip vs k fun
      | .pio _ modeA modeB _ _ => .ok (decodePioDataRead k x (x.pick modeA modeB))
      | .dart .. => .ok (.dartDataRead k x)
  | .strobe k p l => withChip vs k fun
      | .pio _ modeA modeB _ _ => .ok (decodeStrobe k p modeA modeB l)
      | .dart .. => .error (.wrongKind k)
  | .pollTick k => onlyPio vs k (.pioPollTick k)
  | .receiveData k c v => onlyDart vs k (.dartReceiveData k c v)
  | .ctsW k c l => onlyDart vs k (.dartCtsW k c l)
  | .dcdW k c l => onlyDart vs k (.dartDcdW k c l)
  | .riW k c l => onlyDart vs k (.dartRiW k c l)
  | .rxcaW k => onlyDart vs k (.dartRxcaW k)
  | .txcaW k => onlyDart vs k (.dartTxcaW k)
  | .rxtxcbW k => onlyDart vs k (.dartRxtxcbW k)
  | .irqState k => withChip vs k fun _ => .ok (.irqState k)
  | .irqAck k => withChip vs k fun _ => .ok (.irqAck k)
  | .irqReti k => withChip vs k fun _ => .ok (.irqReti k)
  | .chainInt => .ok .chainInt
  | .chainAck => .ok .chainAck
  | .chainReti => .ok .chainReti
  | .reset k => withChip vs k fun
      | .pio .. => .ok (.resetPio k)
      | .dart .. => .ok (.resetDart k)

/-! The words of the opcode table without a context. -/

/-- The low `n` bytes of `w`, lowest first. -/
def bytesOf : Nat → Nat → List Byte
  | 0, _ => []
  | n + 1, w => BitVec.ofNat 8 w :: bytesOf n (w / 256)

/-- The slot at which a bare table word is read (log entry 15): 16 bits are a bus access on the first chip, 8 bits the
control byte of port A of the first chip, a PIO whose decode state is NORMAL. -/
def tableSlot (nbits : Nat) : Slot :=
  if nbits = 16 then .bus 0 else .pioControl 0 .a .normal

/-- The instruction the decoder reads from a table word given as a number, bit 0 the least significant bit. -/
def decodeTableWord (nbits w : Nat) : Option Instr :=
  (decodeBytes (tableSlot nbits) (bytesOf (nbits / 8) w)).toOption

/-! The encoder. -/

/-- The bytes of an instruction's row of the opcode table; none where the row has no bits (R123). -/
def encode : Instr → List Byte
  | .busWrite _ c b d => [d, 0b000001#6 ++ BitVec.ofBool c ++ BitVec.ofBool b]
  | .busRead _ c b => [0b000000#6 ++ BitVec.ofBool c ++ BitVec.ofBool b]
  | .pioVectorWord _ _ v => [vectorByte v]
  | .pioModeOutput _ _ x => [modeByte 0b00#2 x]
  | .pioModeInput _ _ x => [modeByte 0b01#2 x]
  | .pioModeBidir _ _ x => [modeByte 0b10#2 x]
  | .pioModeBitctl _ _ x => [modeByte 0b11#2 x]
  | .pioIntControlWord _ _ ei ao hl mf => [icwByte ei ao hl mf]
  | .pioReserved1 _ _ x => [reservedByte x 0x1#4]
  | .pioReserved3 _ _ x => [reservedByte x 0x3#4]
  | .pioReserved5 _ _ x => [reservedByte x 0x5#4]
  | .pioReserved9 _ _ x => [reservedByte x 0x9#4]
  | .pioReservedB _ _ x => [reservedByte x 0xB#4]
  | .pioReservedD _ _ x => [reservedByte x 0xD#4]
  | .pioDirectionByte _ _ d => [d]
  | .pioMaskByte _ _ m => [m]
  | .pioControlRead _ _ => []
  | .pioDataWriteOut _ _ d => [d]
  | .pioDataReadOut _ _ => []
  | .pioDataWriteIn _ _ d => [d]
  | .pioDataReadIn _ _ => []
  | .pioDataWriteBidir _ _ d => [d]
  | .pioDataReadBidir _ _ => []
  | .pioDataWriteBitctl _ _ d => [d]
  | .pioDataReadBitctl _ _ => []
  | .pioStrobeOut _ _ _ => []
  | .pioStrobeIn _ _ _ => []
  | .pioStrobeBidirA _ _ => []
  | .pioStrobeBWhileABidir _ _ => []
  | .pioStrobeBitctl _ _ _ => []
  | .pioPollTick _ => []
  | .dartWr0Null _ _ x n => [wr0Byte x 0#3 n]
  | .dartWr0Cmd1 _ _ x n => [wr0Byte x 1#3 n]
  | .dartWr0ResetExtStatus _ _ x n => [wr0Byte x 2#3 n]
  | .dartWr0ChannelReset _ _ x n => [wr0Byte x 3#3 n]
  | .dartWr0EnableIntNextRx _ _ x n => [wr0Byte x 4#3 n]
  | .dartWr0Cmd5 _ _ x n => [wr0Byte x 5#3 n]
  | .dartWr0ErrorReset _ _ x n => [wr0Byte x 6#3 n]
  | .dartWr0ReturnFromInt _ _ x n => [wr0Byte x 7#3 n]
  | .dartWr1 _ _ v => [v]
  | .dartWr2 _ _ v => [v]
  | .dartWr3 _ _ v => [v]
  | .dartWr4 _ _ v => [v]
  | .dartWr5 _ _ v => [v]
  | .dartWr6Wr7Discard _ _ x => [x]
  | .dartReadRr0 _ _ => []
  | .dartReadRr1 _ _ => []
  | .dartReadRr2 _ => []
  | .dartReadReserved _ _ => []
  | .dartDataWrite _ _ d => [d]
  | .dartDataRead _ _ => []
  | .dartReceiveData _ _ _ => []
  | .dartCtsW _ _ _ => []
  | .dartDcdW _ _ _ => []
  | .dartRiW _ _ _ => []
  | .dartRxcaW _ => []
  | .dartTxcaW _ => []
  | .dartRxtxcbW _ => []
  | .irqState _ => []
  | .irqAck _ => []
  | .irqReti _ => []
  | .chainInt => []
  | .chainAck => []
  | .chainReti => []
  | .resetPio _ => []
  | .resetDart _ => []

/-- Encoded bytes as one byte (every row but BUS_WRITE has at most one). -/
def encodedByte (i : Instr) : Byte := (encode i).headD 0#8

/-- The operation an agent issues to have this instruction performed: the inverse of `decodeRequest`. -/
def requestOf (i : Instr) : Request :=
  match i with
  | .busWrite k _ _ _ => .busWord k (encode i)
  | .busRead k _ _ => .busWord k (encode i)
  | .pioVectorWord k p _ => .controlWrite k p (encodedByte i)
  | .pioModeOutput k p _ => .controlWrite k p (encodedByte i)
  | .pioModeInput k p _ => .controlWrite k p (encodedByte i)
  | .pioModeBidir k p _ => .controlWrite k p (encodedByte i)
  | .pioModeBitctl k p _ => .controlWrite k p (encodedByte i)
  | .pioIntControlWord k p _ _ _ _ => .controlWrite k p (encodedByte i)
  | .pioReserved1 k p _ => .controlWrite k p (encodedByte i)
  | .pioReserved3 k p _ => .controlWrite k p (encodedByte i)
  | .pioReserved5 k p _ => .controlWrite k p (encodedByte i)
  | .pioReserved9 k p _ => .controlWrite k p (encodedByte i)
  | .pioReservedB k p _ => .controlWrite k p (encodedByte i)
  | .pioReservedD k p _ => .controlWrite k p (encodedByte i)
  | .pioDirectionByte k p d => .controlWrite k p d
  | .pioMaskByte k p m => .controlWrite k p m
  | .pioControlRead k p => .controlRead k p
  | .pioDataWriteOut k p d => .dataWrite k p d
  | .pioDataReadOut k p => .dataRead k p
  | .pioDataWriteIn k p d => .dataWrite k p d
  | .pioDataReadIn k p => .dataRead k p
  | .pioDataWriteBidir k p d => .dataWrite k p d
  | .pioDataReadBidir k p => .dataRead k p
  | .pioDataWriteBitctl k p d => .dataWrite k p d
  | .pioDataReadBitctl k p => .dataRead k p
  | .pioStrobeOut k p l => .strobe k p l
  | .pioStrobeIn k p l => .strobe k p l
  | .pioStrobeBidirA k l => .strobe k .a l
  | .pioStrobeBWhileABidir k l => .strobe k .b l
  | .pioStrobeBitctl k p l => .strobe k p l
  | .pioPollTick k => .pollTick k
  | .dartWr0Null k c _ _ => .controlWrite k c (encodedByte i)
  | .dartWr0Cmd1 k c _ _ => .controlWrite k c (encodedByte i)
  | .dartWr0ResetExtStatus k c _ _ => .controlWrite k c (encodedByte i)
  | .dartWr0ChannelReset k c _ _ => .controlWrite k c (encodedByte i)
  | .dartWr0EnableIntNextRx k c _ _ => .controlWrite k c (encodedByte i)
  | .dartWr0Cmd5 k c _ _ => .controlWrite k c (encodedByte i)
  | .dartWr0ErrorReset k c _ _ => .controlWrite k c (encodedByte i)
  | .dartWr0ReturnFromInt k c _ _ => .controlWrite k c (encodedByte i)
  | .dartWr1 k c v => .controlWrite k c v
  | .dartWr2 k c v => .controlWrite k c v
  | .dartWr3 k c v => .controlWrite k c v
  | .dartWr4 k c v => .controlWrite k c v
  | .dartWr5 k c v => .controlWrite k c v
  | .dartWr6Wr7Discard k c x => .controlWrite k c x
  | .dartReadRr0 k c => .controlRead k c
  | .dartReadRr1 k c => .controlRead k c
  | .dartReadRr2 k => .controlRead k .b
  | .dartReadReserved k c => .controlRead k c
  | .dartDataWrite k c d => .dataWrite k c d
  | .dartDataRead k c => .dataRead k c
  | .dartReceiveData k c v => .receiveData k c v
  | .dartCtsW k c l => .ctsW k c l
  | .dartDcdW k c l => .dcdW k c l
  | .dartRiW k c l => .riW k c l
  | .dartRxcaW k => .rxcaW k
  | .dartTxcaW k => .txcaW k
  | .dartRxtxcbW k => .rxtxcbW k
  | .irqState k => .irqState k
  | .irqAck k => .irqAck k
  | .irqReti k => .irqReti k
  | .chainInt => .chainInt
  | .chainAck => .chainAck
  | .chainReti => .chainReti
  | .resetPio k => .reset k
  | .resetDart k => .reset k

/-! The "when" column of the opcode table: the states that select a row. -/

/-- Port `p` of a PIO is in decode state `w`. -/
def ChipView.cwsIs (p : Side) (w : Cws) : ChipView → Bool
  | .pio _ _ _ cwsA cwsB => p.pick cwsA cwsB == w
  | .dart .. => false

/-- Port `p` of a PIO is in mode `m`. -/
def ChipView.modeIs (p : Side) (m : Mode) : ChipView → Bool
  | .pio _ modeA modeB _ _ => p.pick modeA modeB == m
  | .dart .. => false

/-- The strobe of port `p` is handled by the port's own mode (R190). -/
def ChipView.strobeOwn (p : Side) (v : ChipView) : Bool :=
  match p with
  | .a => true
  | .b => !v.modeIs .a .bidir

/-- Channel `c` of a DART has the pointer `n`. -/
def ChipView.ptrIs (c : Side) (n : BitVec 3) : ChipView → Bool
  | .pio .. => false
  | .dart _ ptrA ptrB => c.pick ptrA ptrB == n

/-- A read at this pointer has no read register (R230). -/
def ChipView.ptrReserved (c : Side) (v : ChipView) : Bool :=
  (c == .a && v.ptrIs c 2#3) || v.ptrIs c 3#3 || v.ptrIs c 4#3 || v.ptrIs c 5#3 || v.ptrIs c 6#3 || v.ptrIs c 7#3

/-- The condition on the addressed chip under which the instruction's row is the one performed; a row without a "when"
entry needs only its chip. -/
def Instr.rowSelectedBy (v : ChipView) : Instr → Bool
  | .pioVectorWord _ p _ => v.cwsIs p .normal
  | .pioModeOutput _ p _ => v.cwsIs p .normal
  | .pioModeInput _ p _ => v.cwsIs p .normal
  | .pioModeBidir _ p _ => v.cwsIs p .normal
  | .pioModeBitctl _ p _ => v.cwsIs p .normal
  | .pioIntControlWord _ p _ _ _ _ => v.cwsIs p .normal
  | .pioReserved1 _ p _ => v.cwsIs p .normal
  | .pioReserved3 _ p _ => v.cwsIs p .normal
  | .pioReserved5 _ p _ => v.cwsIs p .normal
  | .pioReserved9 _ p _ => v.cwsIs p .normal
  | .pioReservedB _ p _ => v.cwsIs p .normal
  | .pioReservedD _ p _ => v.cwsIs p .normal
  | .pioDirectionByte _ p _ => v.cwsIs p .setDir
  | .pioMaskByte _ p _ => v.cwsIs p .setMask
  | .pioDataWriteOut _ p _ => v.modeIs p .output
  | .pioDataReadOut _ p => v.modeIs p .output
  | .pioDataWriteIn _ p _ => v.modeIs p .input
  | .pioDataReadIn _ p => v.modeIs p .input
  | .pioDataWriteBidir _ p _ => v.modeIs p .bidir
  | .pioDataReadBidir _ p => v.modeIs p .bidir
  | .pioDataWriteBitctl _ p _ => v.modeIs p .bitctl
  | .pioDataReadBitctl _ p => v.modeIs p .bitctl
  | .pioStrobeOut _ p _ => v.strobeOwn p && v.modeIs p .output
  | .pioStrobeIn _ p _ => v.strobeOwn p && v.modeIs p .input
  | .pioStrobeBidirA _ _ => v.modeIs .a .bidir
  | .pioStrobeBWhileABidir _ _ => v.modeIs .a .bidir
  | .pioStrobeBitctl _ p _ => v.strobeOwn p && v.modeIs p .bitctl
  | .dartWr0Null _ c _ _ => v.ptrIs c 0#3
  | .dartWr0Cmd1 _ c _ _ => v.ptrIs c 0#3
  | .dartWr0ResetExtStatus _ c _ _ => v.ptrIs c 0#3
  | .dartWr0ChannelReset _ c _ _ => v.ptrIs c 0#3
  | .dartWr0EnableIntNextRx _ c _ _ => v.ptrIs c 0#3
  | .dartWr0Cmd5 _ c _ _ => v.ptrIs c 0#3
  | .dartWr0ErrorReset _ c _ _ => v.ptrIs c 0#3
  | .dartWr0ReturnFromInt _ c _ _ => v.ptrIs c 0#3
  | .dartWr1 _ c _ => v.ptrIs c 1#3
  | .dartWr2 _ c _ => v.ptrIs c 2#3
  | .dartWr3 _ c _ => v.ptrIs c 3#3
  | .dartWr4 _ c _ => v.ptrIs c 4#3
  | .dartWr5 _ c _ => v.ptrIs c 5#3
  | .dartWr6Wr7Discard _ c _ => v.ptrIs c 6#3 || v.ptrIs c 7#3
  | .dartReadRr0 _ c => v.ptrIs c 0#3
  | .dartReadRr1 _ c => v.ptrIs c 1#3
  | .dartReadRr2 _ => v.ptrIs .b 2#3
  | .dartReadReserved _ c => v.ptrReserved c
  | _ => true

/-- The chain selects this instruction's row: its chip is there, of the right kind, and in the state of the row's "when". -/
def Instr.selectedIn (vs : List ChipView) (i : Instr) : Bool :=
  i.operand.inChain vs &&
    match i.operand with
    | .anyChip k => (vs[k]?.map i.rowSelectedBy).getD false
    | .pioChip k => (vs[k]?.map i.rowSelectedBy).getD false
    | .dartChip k => (vs[k]?.map i.rowSelectedBy).getD false
    | .wholeChain => true

end Sys2Proof
end

