-- ==== Sys2Proof/Machine/State.lean ====
section
/-! DEFINITION. The state of the block (spec/10_state.md): plain data, every field the spec names, and the few fields of
the model's own that INVENTORY.md marks as such. -/

namespace Sys2Proof.Machine

/-! Interrupt sources (R23). -/

/-- One interrupt source: the pending flag `ip` and the two flags of `ist` (R23). -/
structure Source where
  ip  : Bool
  /-- `INT` in `ist`: requesting an interrupt -/
  int : Bool
  /-- `IEO` in `ist`: under service -/
  ieo : Bool
deriving DecidableEq, Repr

/-- What `irq_state` answers: a subset of `INT`, `IEO` (R324). -/
structure Irq where
  int : Bool
  ieo : Bool
deriving DecidableEq, Repr

/-! The PIO (R25). -/

/-- A PIO port (R25). `pins` is the model's own: what the external device now presents to `PortRead` (log entry 8). -/
structure Port where
  mode     : Mode
  cws      : Cws
  ior      : Byte
  icw      : Byte
  ie       : Bool
  vector   : Byte
  mask     : Byte
  inLatch  : Byte
  outLatch : Byte
  rdy      : Level
  stb      : Level
  matched  : Bool
  src      : Source
  pins     : Byte
deriving DecidableEq, Repr

/-- A PIO chip: two ports and its configuration (R20, R7). -/
structure PioChip where
  cfg : PioConfig
  a   : Port
  b   : Port
deriving DecidableEq, Repr

/-! The DART (R40). -/

/-- A framing state (R22, R290, R300). -/
inductive Frame where
  | start
  | data
  | parity
  | stop
  | stop2
deriving DecidableEq, Repr

/-- Three bytes, index 0 first. -/
structure Three where
  x0 : Byte
  x1 : Byte
  x2 : Byte
deriving DecidableEq, Repr

/-- The receive FIFO (R40, R247): `n` buffered characters, oldest at index 0, and their error flags. -/
structure Fifo where
  n    : Nat
  data : Three
  err  : Three
deriving DecidableEq, Repr

/-- A DART channel (R40). `rxd` is the model's own: the level now on the receive line (log entry 8). -/
structure Channel where
  wr0      : Byte
  wr1      : Byte
  wr2      : Byte
  wr3      : Byte
  wr4      : Byte
  wr5      : Byte
  rr0      : Byte
  rr1      : Byte
  rr0Latch : Bool
  rxFirst  : Bool
  fifo     : Fifo
  txData   : Byte
  rxState  : Frame
  txState  : Frame
  rxShift  : Byte
  txShift  : Byte
  rxBits   : Nat
  txBits   : Nat
  rxPar    : Bool
  txPar    : Bool
  rxErr    : Byte
  rxDiv    : Nat
  txDiv    : Nat
  cts      : Level
  dcd      : Level
  ri       : Level
  rts      : Level
  dtr      : Level
  txd      : Level
  cause    : BitVec 2
  src      : Source
  rxd      : Level
deriving DecidableEq, Repr

/-- A DART chip: two channels and its configuration (R20, R7). -/
structure DartChip where
  cfg : DartConfig
  a   : Channel
  b   : Channel
deriving DecidableEq, Repr

/-- A chip of CHAIN, tagged PIO or DART (R7). -/
inductive Chip where
  | pio (c : PioChip)
  | dart (c : DartChip)
deriving DecidableEq, Repr

/-! Outputs. -/

/-- The two protocol diagnostics (R343). -/
inductive Diagnostic where
  | ackWithoutRequest
  | retiWithoutService
deriving DecidableEq, Repr

/-- An output event of one chip (R11, R92), or a diagnostic raised by it (R344). -/
inductive Signal where
  | portWrite (p : Side) (v : Byte)
  | ready (p : Side) (l : Level)
  | txd (c : Side) (l : Level)
  | rts (c : Side) (l : Level)
  | dtr (c : Side) (l : Level)
  | diagnostic (d : Diagnostic)
deriving DecidableEq, Repr

/-- An entry of the trace: an event of the chip at position `k`, or a diagnostic of the chain (R354). -/
inductive Event where
  | chip (k : Nat) (e : Signal)
  | chain (d : Diagnostic)
deriving DecidableEq, Repr

/-- The result of an operation (R83, R324, R325, R351). -/
inductive Answer where
  /-- the operation has no result -/
  | none
  /-- a byte: a read, or a vector -/
  | byte (v : Byte)
  /-- `irq_state` -/
  | irq (i : Irq)
  /-- `chain_int`: the position of the requesting chip, if any -/
  | requester (k : Option Nat)
deriving DecidableEq, Repr

/-- What a chip answers before "any value" is drawn (R230, R245). -/
inductive Reply where
  | none
  | byte (v : Byte)
  | anyByte
  | irq (i : Irq)
deriving DecidableEq, Repr

/-- A chip in the middle of an operation: its fields so far, the events it has driven so far, its reply. -/
structure Act (α : Type) where
  chip  : α
  out   : List Signal
  reply : Reply
deriving DecidableEq, Repr

/-! The state. -/

/-- The state of the block (R20) and of its interface. -/
structure State where
  /-- CHAIN, first chip = highest priority (R7, R347) -/
  chips         : List Chip
  /-- DART_READ_RESETS_POINTER (R7, R226); no step changes it -/
  readResetsPtr : Bool
  /-- the operations and environment changes still to come, in order (log entry 1) -/
  inputs        : List Input
  /-- the result of the last operation (log entry 10) -/
  answer        : Answer
  /-- the output events and diagnostics so far, oldest first (R92, R344; log entry 10) -/
  trace         : List Event
  /-- how many free bytes have been drawn (log entry 9) -/
  draws         : Nat
deriving DecidableEq, Repr

/-- Why the machine stops. All are safe: the spec says there is nothing at the address or operation named, so no
behaviour of the block is cut off. -/
inductive Fault where
  /-- Raised by decoding and by a meaning: the position is outside CHAIN (R7, R81). Safe. -/
  | noSuchChip (k : Nat)
  /-- Raised by decoding and by a meaning: an operation of one kind of chip on the other kind (R123). Safe. -/
  | wrongKind (k : Nat)
  /-- Raised by decoding: the bits driven on a bus are no bus word (R89, R110). Safe. -/
  | badBusWord
  /-- Raised by an environment tick of a fixed-rate clock the configuration does not have (R286). Safe. -/
  | noSuchTimer (k : Nat)
deriving DecidableEq, Repr

/-- Why an instruction has no meaning. -/
inductive Refusal where
  /-- Raised by exec for an instruction that has no meaning yet (none is left). Safe. -/
  | notModelled (mnemonic : String)
deriving DecidableEq, Repr

/-- The result of a step. -/
abbrev Out := Host.Outcome State Fault Refusal

/-! Reset. -/

/-- Idle: nothing latched, requesting or under service (R24). -/
def Source.idle : Source := { ip := false, int := false, ieo := false }

/-- A PIO port after reset (R65, R380, R381). DESIGN CHOICE (log entry 6): `ior`, `icw[6:0]`, `vector`, `inLatch` are 0;
(log entry 8): `pins` is 0. -/
def Port.atReset : Port :=
  { mode := .input, cws := .normal, ior := 0x00#8, icw := 0x00#8, ie := false, vector := 0x00#8, mask := 0xFF#8,
    inLatch := 0x00#8, outLatch := 0x00#8, rdy := false, stb := true, matched := false, src := Source.idle,
    pins := 0x00#8 }

/-- Three zero bytes. -/
def Three.zero : Three := { x0 := 0x00#8, x1 := 0x00#8, x2 := 0x00#8 }

/-- A DART channel after reset with its input lines released (R66, R383). DESIGN CHOICE (log entry 7): the FIFO
contents, `txData` and the shift registers are 0; (log entry 8): `rxd` is 1. -/
def Channel.atReset : Channel :=
  { wr0 := 0x00#8, wr1 := 0x00#8, wr2 := 0x00#8, wr3 := 0x00#8, wr4 := 0x00#8, wr5 := 0x00#8,
    rr0 := 0x04#8, rr1 := 0x01#8, rr0Latch := false, rxFirst := false,
    fifo := { n := 0, data := Three.zero, err := Three.zero }, txData := 0x00#8,
    rxState := .start, txState := .start, rxShift := 0x00#8, txShift := 0x00#8, rxBits := 0, txBits := 0,
    rxPar := false, txPar := false, rxErr := 0x00#8, rxDiv := 0, txDiv := 0,
    cts := true, dcd := true, ri := true, rts := true, dtr := true, txd := true, cause := 0#2,
    src := Source.idle, rxd := true }

/-- DESIGN CHOICE (log entries 3, 5). -/
def PioChip.atReset : PioChip :=
  { cfg := { order := .cdBa, clockHz := 1, pollNum := 1, pollDen := 1 }, a := Port.atReset, b := Port.atReset }

/-- DESIGN CHOICE (log entries 3, 5). -/
def DartChip.atReset : DartChip :=
  { cfg := { order := .cdBa, clockHz := 1, rxHzA := 0, txHzA := 0, rxHzB := 0, txHzB := 0 },
    a := Channel.atReset, b := Channel.atReset }

/-- The block right after every chip was reset once (R388). DESIGN CHOICE: the chain is one PIO then one DART (log entry
2), `readResetsPtr` is true (log entry 4), no input waits (log entry 1), the trace is empty (log entry 10). -/
def State.reset : State :=
  { chips := [.pio PioChip.atReset, .dart DartChip.atReset], readResetsPtr := true, inputs := [], answer := .none,
    trace := [], draws := 0 }

end Sys2Proof.Machine
end

