-- ==== Sys2Proof/Machine/Operands.lean ====
section
/-! DEFINITION. Ports and channels of a chip, the fields cut from the register bytes (R118), and FIFO entries. -/

namespace Sys2Proof.Machine

/-! Ports and channels. -/

/-- Port `p` of a PIO. -/
def PioChip.port (c : PioChip) : Side → Port
  | .a => c.a
  | .b => c.b

/-- Replace port `p`. -/
def PioChip.setPort (c : PioChip) (p : Side) (q : Port) : PioChip :=
  match p with
  | .a => { c with a := q }
  | .b => { c with b := q }

/-- Channel `s` of a DART. -/
def DartChip.ch (d : DartChip) : Side → Channel
  | .a => d.a
  | .b => d.b

/-- Replace channel `s`. -/
def DartChip.setCh (d : DartChip) (s : Side) (q : Channel) : DartChip :=
  match s with
  | .a => { d with a := q }
  | .b => { d with b := q }

/-! Fields (R118). -/

/-- `ptr(c) = wr[0][2:0]`. -/
def Channel.ptr (q : Channel) : BitVec 3 := q.wr0.extractLsb' 0 3

/-- `cmd(byte) = byte[5:3]`. -/
def wr0Cmd (v : Byte) : BitVec 3 := v.extractLsb' 3 3

/-- `mult(c)` (R281). -/
def Channel.mult (q : Channel) : Nat :=
  match q.wr4.extractLsb' 6 2 with
  | 0b00#2 => 1
  | 0b01#2 => 16
  | 0b10#2 => 32
  | _ => 64

/-- The word-length code (R45, R47). -/
def wordLength (code : BitVec 2) : Nat :=
  match code with
  | 0b00#2 => 5
  | 0b01#2 => 7
  | 0b10#2 => 6
  | _ => 8

/-- `rx_wl(c)`. -/
def Channel.rxWl (q : Channel) : Nat := wordLength (q.wr3.extractLsb' 6 2)

/-- `tx_wl(c)`. -/
def Channel.txWl (q : Channel) : Nat := wordLength (q.wr5.extractLsb' 5 2)

/-- `par_en(c)`. -/
def Channel.parEn (q : Channel) : Bool := q.wr4.getLsbD 0

/-- `par_even(c)`. -/
def Channel.parEven (q : Channel) : Bool := q.wr4.getLsbD 1

/-- `one_stop(c)` (R288). -/
def Channel.oneStop (q : Channel) : Bool := q.wr4.extractLsb' 2 2 == 0b01#2

/-- `rx_im(c)`. -/
def Channel.rxIm (q : Channel) : BitVec 2 := q.wr1.extractLsb' 3 2

/-- `EXT_IE` (R43). -/
def Channel.extIe (q : Channel) : Bool := q.wr1.getLsbD 0

/-- `TX_IE` (R43). -/
def Channel.txIe (q : Channel) : Bool := q.wr1.getLsbD 1

/-- `sav(chip) = ch[B].wr[1][2]`. -/
def DartChip.sav (d : DartChip) : Bool := d.b.wr1.getLsbD 2

/-- `RX_EN` (R45). -/
def Channel.rxEn (q : Channel) : Bool := q.wr3.getLsbD 0

/-- `AUTO_EN` (R45). -/
def Channel.autoEn (q : Channel) : Bool := q.wr3.getLsbD 5

/-- `RTS_BIT` (R47). -/
def Channel.rtsBit (q : Channel) : Bool := q.wr5.getLsbD 1

/-- `TX_EN` (R47). -/
def Channel.txEn (q : Channel) : Bool := q.wr5.getLsbD 3

/-- `SEND_BREAK` (R47). -/
def Channel.sendBreak (q : Channel) : Bool := q.wr5.getLsbD 4

/-! FIFO entries (R40). -/

/-- Replace entry `i`; there is none at 3 or above. -/
def Three.put (t : Three) (i : Nat) (v : Byte) : Three :=
  match i with
  | 0 => { t with x0 := v }
  | 1 => { t with x1 := v }
  | 2 => { t with x2 := v }
  | _ => t

/-- Entries 1 and 2 move down by one; entry 2 keeps its old content (R245). -/
def Three.shiftDown (t : Three) : Three := { x0 := t.x1, x1 := t.x2, x2 := t.x2 }

/-! What the decoder reads of a chip (R82, R130, R131). -/

/-- The decoder's view of a chip. -/
def Chip.view : Chip → ChipView
  | .pio c => .pio c.cfg.order c.a.mode c.b.mode c.a.cws c.b.cws
  | .dart d => .dart d.cfg.order d.a.ptr d.b.ptr

/-- The decoder's view of the chain. -/
def State.views (s : State) : List ChipView := s.chips.map Chip.view

end Sys2Proof.Machine
end

