-- ==== Sys2Proof/Machine/Flags.lean ====
section
/-! DEFINITION. The status bits (R48, R49), the parity bit (R289), the match condition (R201), the enables of the
interrupt sources (R321). -/

namespace Sys2Proof.Machine

/-! RR0 (R48) and RR1 (R49), as masks. -/

def rxAvail : Byte := 0x01#8
def intPend : Byte := 0x02#8
def txEmpty : Byte := 0x04#8
def dcdBit : Byte := 0x08#8
def riBit : Byte := 0x10#8
def ctsBit : Byte := 0x20#8
def breakBit : Byte := 0x80#8
def allSent : Byte := 0x01#8
def parityErr : Byte := 0x10#8
def overrun : Byte := 0x20#8
def framing : Byte := 0x40#8

/-- Set the bits of `m` in `w`. -/
def setBits (w m : Byte) : Byte := w ||| m

/-- Clear the bits of `m` in `w`. -/
def clearBits (w m : Byte) : Byte := w &&& ~~~m

/-- Some bit of `m` is set in `w`. -/
def hasBits (w m : Byte) : Bool := (w &&& m) != 0#8

/-- Set or clear the bits of `m`. -/
def putBits (on : Bool) (w m : Byte) : Byte := if on then setBits w m else clearBits w m

/-- The parity bit of a character from the accumulator: `acc` for even parity, `acc ^ 1` for odd (R289). -/
def parityBit (even acc : Bool) : Level := if even then acc else !acc

/-- The line bits of RR0 derived from the three latches: 1 where the line is asserted, level 0 (R48, R66). -/
def lineBits (q : Channel) : Byte :=
  putBits (!q.dcd) (putBits (!q.ri) (putBits (!q.cts) 0x00#8 ctsBit) riBit) dcdBit

/-- What a Bit-Control data read returns and the poll examines (R179, R200). -/
def Port.seen (q : Port) : Byte := q.inLatch ||| (q.outLatch &&& ~~~q.ior)

/-- The match condition of R201: AND is `icw[6]`, active high is `icw[5]`, monitored lines have mask bit 0. -/
def matchCondition (q : Port) (d : Byte) : Bool :=
  let mon := ~~~q.mask
  let act := (if q.icw.getLsbD 5 then d else ~~~d) &&& mon
  if q.icw.getLsbD 6 then act == mon else act != 0#8

/-- `enabled(s)` of a PIO port (R321). -/
def Port.enabled (q : Port) : Bool := q.ie

/-- `enabled(s)` of a DART channel: any interrupt type is enabled (R321). -/
def Channel.enabled (q : Channel) : Bool := q.extIe || q.txIe || q.rxIm != 0b00#2

end Sys2Proof.Machine
end

