-- ==== Sys2Proof/Machine/Ops.lean ====
section
/-! DEFINITION. The operations shared by all families: building up an operation on a chip and its output events (R11,
R92), the interrupt arbiter (R322), the acknowledge and the return from interrupt (R325, R327: the block's "taking an
exception" and "return"), and how the result of a chip's operation becomes the next state. -/

namespace Sys2Proof.Machine

/-! An operation in progress. -/

/-- The start of an operation: nothing changed, nothing driven, no result. -/
def Act.begin {α : Type} (c : α) : Act α := { chip := c, out := [], reply := .none }

/-- Change the chip. -/
def Act.apply {α : Type} (x : Act α) (f : α → α) : Act α := { x with chip := f x.chip }

/-- Emit one output event, after those already emitted (R92). -/
def Act.emit {α : Type} (x : Act α) (e : Signal) : Act α := { x with out := x.out ++ [e] }

/-- Set the result of the operation. -/
def Act.replyWith {α : Type} (x : Act α) (r : Reply) : Act α := { x with reply := r }

/-- The same operation seen on a chip of CHAIN. -/
def Act.lift {α β : Type} (f : α → β) (x : Act α) : Act β := { chip := f x.chip, out := x.out, reply := x.reply }

/-- Change port `p` of a PIO. -/
def Act.onPort (x : Act PioChip) (p : Side) (f : Port → Port) : Act PioChip :=
  x.apply fun c => c.setPort p (f (c.port p))

/-- Change channel `s` of a DART. -/
def Act.onCh (x : Act DartChip) (s : Side) (f : Channel → Channel) : Act DartChip :=
  x.apply fun d => d.setCh s (f (d.ch s))

/-! Output lines (R11). -/

/-- `Ready(p, l)`. -/
def Act.ready (x : Act PioChip) (p : Side) (l : Level) : Act PioChip :=
  (x.onPort p fun q => { q with rdy := l }).emit (.ready p l)

/-- `PortWrite(p, v)`. -/
def Act.portWrite (x : Act PioChip) (p : Side) (v : Byte) : Act PioChip := x.emit (.portWrite p v)

/-- `TxD(c, l)`. -/
def Act.driveTxd (x : Act DartChip) (c : Side) (l : Level) : Act DartChip :=
  (x.onCh c fun q => { q with txd := l }).emit (.txd c l)

/-- `RTS(c, l)`. -/
def Act.driveRts (x : Act DartChip) (c : Side) (l : Level) : Act DartChip :=
  (x.onCh c fun q => { q with rts := l }).emit (.rts c l)

/-- `DTR(c, l)`. -/
def Act.driveDtr (x : Act DartChip) (c : Side) (l : Level) : Act DartChip :=
  (x.onCh c fun q => { q with dtr := l }).emit (.dtr c l)

/-! The interrupt arbiter, identical for both kinds of chip (R320 to R328). -/

/-- One source in `check_interrupt` (R322): a disabled source loses `INT` and keeps `ip`; an enabled one whose turn it is
(`free`: no source before it was promoted) moves `ip` into `INT`. -/
def Source.settle (s : Source) (en free : Bool) : Source :=
  if !en then { s with int := false }
  else if s.ip && free then { s with ip := false, int := true }
  else s

/-- `irq_state` on the two sources (R324): the scan stops at the first source under service. -/
def irqScan (a b : Source) : Irq :=
  if a.ieo then { int := false, ieo := true }
  else if b.ieo then { int := a.int, ieo := true }
  else { int := a.int || b.int, ieo := false }

/-- The first source requesting, A before B (R325). -/
def firstInt (a b : Source) : Option Side :=
  if a.int then some .a else if b.int then some .b else none

/-- The first source under service, A before B (R327). -/
def firstIeo (a b : Source) : Option Side :=
  if a.ieo then some .a else if b.ieo then some .b else none

/-- A request acknowledged: `INT` becomes `IEO` (R325). -/
def Source.acked (s : Source) : Source := { s with int := false, ieo := true }

/-- A source returned from (R327). -/
def Source.released (s : Source) : Source := { s with ieo := false }

/-- A request withdrawn without `IEO` being touched (R157). -/
def Source.withdrawn (s : Source) : Source := { s with ip := false, int := false }

/-- `check_interrupt` of a PIO (R322). -/
def PioChip.checkInterrupt (c : PioChip) : PioChip :=
  { c with
    a := { c.a with src := c.a.src.settle c.a.enabled true }
    b := { c.b with src := c.b.src.settle c.b.enabled (!(c.a.enabled && c.a.src.ip)) } }

/-- `check_interrupt` of a DART (R322). -/
def DartChip.checkInterrupt (d : DartChip) : DartChip :=
  { d with
    a := { d.a with src := d.a.src.settle d.a.enabled true }
    b := { d.b with src := d.b.src.settle d.b.enabled (!(d.a.enabled && d.a.src.ip)) } }

/-- `trigger(q)` (R191): the pending flag, then the re-evaluation. -/
def Act.trigger (x : Act PioChip) (p : Side) : Act PioChip :=
  (x.onPort p fun q => { q with src := { q.src with ip := true } }).apply PioChip.checkInterrupt

/-- `raise_int(c, k)` (R329). -/
def Act.raiseInt (x : Act DartChip) (c : Side) (k : BitVec 2) : Act DartChip :=
  (x.onCh c fun q => { q with cause := k, src := { q.src with ip := true } }).apply DartChip.checkInterrupt

/-- `irq_state` of a PIO (R324). -/
def PioChip.irqState (c : PioChip) : Irq := irqScan c.a.src c.b.src

/-- `irq_state` of a DART (R324). -/
def DartChip.irqState (d : DartChip) : Irq := irqScan d.a.src d.b.src

/-- `irq_state` of a chip (R324). -/
def Chip.irqState : Chip → Irq
  | .pio c => c.irqState
  | .dart d => d.irqState

/-- The chip's interrupt line: asserted exactly when `INT` is in `irq_state` (R323). -/
def Chip.intLine (c : Chip) : Bool := c.irqState.int

/-! Vectors (R326, R330, R331). -/

/-- Bits 3 to 1 of a vector under "status affects vector": the channel, then the cause (R330). -/
def statusVector (v : Byte) (s : Side) (cause : BitVec 2) : Byte :=
  (v &&& 0xF1#8) ||| ((BitVec.ofBool (s == .a)).setWidth 8 <<< 3) ||| (cause.setWidth 8 <<< 1)

/-- `dart_vector(chip, s)` (R330). -/
def DartChip.vectorOf (d : DartChip) (s : Side) : Byte :=
  if d.sav then statusVector d.b.wr2 s (d.ch s).cause else d.b.wr2

/-- Something is going on at this source: requesting, under service, or latched (R331). -/
def Source.active (s : Source) : Bool := s.int || s.ieo || s.ip

/-- `rr2_value(chip)` (R331). -/
def DartChip.rr2Value (d : DartChip) : Byte :=
  if !d.sav then d.b.wr2
  else if d.a.src.active then statusVector d.b.wr2 .a d.a.cause
  else if d.b.src.active then statusVector d.b.wr2 .b d.b.cause
  else (d.b.wr2 &&& 0xF1#8) ||| 0x06#8

/-! Taking an interrupt and returning from one. -/

/-- `irq_ack` of a PIO (R325): the first requesting source goes under service and its vector is the result. -/
def PioChip.irqAck (c : PioChip) : Act PioChip :=
  match firstInt c.a.src c.b.src with
  | some p =>
    let x := ((Act.begin c).onPort p fun q => { q with src := q.src.acked }).apply PioChip.checkInterrupt
    x.replyWith (.byte (x.chip.port p).vector)
  | none => ((Act.begin c).emit (.diagnostic .ackWithoutRequest)).replyWith (.byte c.a.vector)

/-- `irq_ack` of a DART (R325). -/
def DartChip.irqAck (d : DartChip) : Act DartChip :=
  match firstInt d.a.src d.b.src with
  | some s =>
    let x := ((Act.begin d).onCh s fun q => { q with src := q.src.acked }).apply DartChip.checkInterrupt
    x.replyWith (.byte (x.chip.vectorOf s))
  | none => ((Act.begin d).emit (.diagnostic .ackWithoutRequest)).replyWith (.byte (d.vectorOf .a))

/-- `irq_reti` of a PIO (R327): the first source under service is released. -/
def PioChip.irqReti (x : Act PioChip) : Act PioChip :=
  match firstIeo x.chip.a.src x.chip.b.src with
  | some p => (x.onPort p fun q => { q with src := q.src.released }).apply PioChip.checkInterrupt
  | none => x.emit (.diagnostic .retiWithoutService)

/-- `irq_reti` of a DART (R327); also the Return-from-interrupt command (R219). -/
def DartChip.irqReti (x : Act DartChip) : Act DartChip :=
  match firstIeo x.chip.a.src x.chip.b.src with
  | some s => (x.onCh s fun q => { q with src := q.src.released }).apply DartChip.checkInterrupt
  | none => x.emit (.diagnostic .retiWithoutService)

/-- `irq_ack` of a chip (R325). -/
def Chip.irqAck : Chip → Act Chip
  | .pio c => c.irqAck.lift .pio
  | .dart d => d.irqAck.lift .dart

/-- `irq_reti` of a chip (R327). -/
def Chip.irqReti : Chip → Act Chip
  | .pio c => (PioChip.irqReti (Act.begin c)).lift .pio
  | .dart d => (DartChip.irqReti (Act.begin d)).lift .dart

/-! The chain (R351, R354). -/

/-- The walk of `chain_int` (R351): the position of the chip that requests and is not blocked. -/
def requesterFrom (k : Nat) : List Chip → Option Nat
  | [] => none
  | c :: cs =>
    if c.irqState.int then some k
    else if c.irqState.ieo then none
    else requesterFrom (k + 1) cs

/-- The walk of `chain_reti` (R354): the position of the first chip under service. -/
def servedFrom (k : Nat) : List Chip → Option Nat
  | [] => none
  | c :: cs => if c.irqState.ieo then some k else servedFrom (k + 1) cs

/-- `chain_int()` (R351). -/
def State.requester (s : State) : Option Nat := requesterFrom 0 s.chips

/-- The chip `chain_reti()` notifies (R354). -/
def State.served (s : State) : Option Nat := servedFrom 0 s.chips

/-- The CPU's interrupt request input (R351). -/
def State.cpuInt (s : State) : Bool := s.requester.isSome

/-! From a chip's operation to the next state. -/

/-- The result shown to the agent; "any value" is the next free byte. -/
def Reply.toAnswer (r : Reply) (draws : Nat) : Answer :=
  match r with
  | .none => .none
  | .byte v => .byte v
  | .anyByte => .byte (Config.freeByte draws)
  | .irq i => .irq i

/-- How many free bytes a result draws. -/
def Reply.cost : Reply → Nat
  | .anyByte => 1
  | _ => 0

/-- The state after an operation on the chip at position `k`: that chip, the events appended, the result. Nothing else
changes (R20, R99). -/
def State.commit (s : State) (k : Nat) (x : Act Chip) : State :=
  { s with
    chips  := s.chips.set k x.chip
    answer := x.reply.toAnswer s.draws
    trace  := s.trace ++ x.out.map (Event.chip k)
    draws  := s.draws + x.reply.cost }

/-- An operation on any chip. -/
def onChip (k : Nat) (s : State) (f : Chip → Act Chip) : Out :=
  match s.chips[k]? with
  | some c => .next (s.commit k (f c))
  | none => .fault (.noSuchChip k)

/-- An operation on a PIO. -/
def onPio (k : Nat) (s : State) (f : PioChip → Act PioChip) : Out :=
  match s.chips[k]? with
  | some (.pio c) => .next (s.commit k ((f c).lift .pio))
  | some (.dart _) => .fault (.wrongKind k)
  | none => .fault (.noSuchChip k)

/-- An operation on a DART. -/
def onDart (k : Nat) (s : State) (f : DartChip → Act DartChip) : Out :=
  match s.chips[k]? with
  | some (.dart d) => .next (s.commit k ((f d).lift .dart))
  | some (.pio _) => .fault (.wrongKind k)
  | none => .fault (.noSuchChip k)

end Sys2Proof.Machine
end

