-- ==== Sys2Proof/Machine/DartControl.lean ====
section
/-! DEFINITION. DART control register (spec/43_dart_control.md). Each instruction is a byte written to, or a read of, a
channel's control register. Where the pointer selects the instruction's row, the row's own rule applies; at another
pointer the same access is what R211 or R226 makes of it (R131, R395; log entry 12). -/

namespace Sys2Proof.Machine

/-! WR0 (R212 to R220). -/

/-- The byte is stored first (R220). -/
def storeWr0 (c : Side) (v : Byte) (x : Act DartChip) : Act DartChip := x.onCh c fun q => { q with wr0 := v }

/-- R214. -/
def resetExtStatus (c : Side) (x : Act DartChip) : Act DartChip :=
  x.onCh c fun q =>
    { q with rr0 := clearBits q.rr0 (dcdBit ||| riBit ||| ctsBit ||| breakBit) ||| lineBits q, rr0Latch := false }

/-- The registers Channel-reset changes (R215). -/
def Channel.disabled (q : Channel) : Channel :=
  { q with wr3 := clearBits q.wr3 0x01#8, wr5 := clearBits q.wr5 0x08#8, rxState := .start, txState := .start }

/-- All pending interrupt state of both channels cleared (R215). -/
def DartChip.clearInterrupts (d : DartChip) : DartChip :=
  { d with a := { d.a with src := Source.idle }, b := { d.b with src := Source.idle } }

/-- R215. -/
def channelReset (c : Side) (x : Act DartChip) : Act DartChip :=
  let y := ((x.onCh c Channel.disabled).driveRts c true).driveDtr c true
  match c with
  | .a => y.apply DartChip.clearInterrupts
  | .b => y

/-- R216. -/
def enableNextRx (c : Side) (x : Act DartChip) : Act DartChip := x.onCh c fun q => { q with rxFirst := true }

/-- R218. -/
def errorReset (c : Side) (x : Act DartChip) : Act DartChip :=
  x.onCh c fun q => { q with rr1 := clearBits q.rr1 (parityErr ||| overrun ||| framing) }

/-- A write to WR0 (R212): the byte is stored, then its command runs. -/
def writeWr0 (c : Side) (v : Byte) (x : Act DartChip) : Act DartChip :=
  let y := storeWr0 c v x
  match wr0Cmd v with
  | 2#3 => resetExtStatus c y
  | 3#3 => channelReset c y
  | 4#3 => enableNextRx c y
  | 6#3 => errorReset c y
  | 7#3 => DartChip.irqReti y
  | _ => y

/-! WR1 to WR7. -/

/-- R221. -/
def writeWr1 (c : Side) (v : Byte) (x : Act DartChip) : Act DartChip :=
  (x.onCh c fun q => { q with wr1 := v }).apply DartChip.checkInterrupt

/-- R222. -/
def writeWr2 (c : Side) (v : Byte) (x : Act DartChip) : Act DartChip := x.onCh c fun q => { q with wr2 := v }

/-- R223. -/
def writeWr3 (c : Side) (v : Byte) (x : Act DartChip) : Act DartChip := x.onCh c fun q => { q with wr3 := v }

/-- R223. -/
def writeWr4 (c : Side) (v : Byte) (x : Act DartChip) : Act DartChip := x.onCh c fun q => { q with wr4 := v }

/-- R224: RTS asserted at once, released at once only when all is sent, else released by R306; DTR both ways. -/
def writeWr5 (c : Side) (v : Byte) (x : Act DartChip) : Act DartChip :=
  let y := x.onCh c fun q => { q with wr5 := v }
  let z :=
    if v.getLsbD 1 then y.driveRts c false
    else if hasBits (y.chip.ch c).rr1 allSent then y.driveRts c true
    else y
  z.driveDtr c (!v.getLsbD 7)

/-- The pointer returns to register 0 (R211; R225 is this alone). -/
def pointerHome (c : Side) (x : Act DartChip) : Act DartChip := x.onCh c fun q => { q with wr0 := 0x00#8 }

/-- `control_write(c, v)` on a DART (R211). -/
def dartControlWrite (c : Side) (v : Byte) (x : Act DartChip) : Act DartChip :=
  match (x.chip.ch c).ptr with
  | 0#3 => writeWr0 c v x
  | 1#3 => pointerHome c (writeWr1 c v x)
  | 2#3 => pointerHome c (writeWr2 c v x)
  | 3#3 => pointerHome c (writeWr3 c v x)
  | 4#3 => pointerHome c (writeWr4 c v x)
  | 5#3 => pointerHome c (writeWr5 c v x)
  | _ => pointerHome c x

/-! Reads (R226 to R230). -/

/-- The value of a read of RR0 (R227): INT_PEND is computed, on channel A only. -/
def DartChip.rr0Value (d : DartChip) (c : Side) : Byte :=
  let r := clearBits (d.ch c).rr0 0x42#8
  if c == .a && (d.a.src.int || d.b.src.int) then setBits r intPend else r

/-- What a read does to the pointer (R226). -/
def readPointer (resets : Bool) (c : Side) (x : Act DartChip) : Act DartChip :=
  if resets && (x.chip.ch c).ptr != 0#3 then pointerHome c x else x

/-- R227. -/
def readRr0 (c : Side) (x : Act DartChip) : Act DartChip := x.replyWith (.byte (x.chip.rr0Value c))

/-- R228. -/
def readRr1 (c : Side) (x : Act DartChip) : Act DartChip := x.replyWith (.byte (x.chip.ch c).rr1)

/-- R229. -/
def readRr2 (x : Act DartChip) : Act DartChip := x.replyWith (.byte x.chip.rr2Value)

/-- R230: any value. -/
def readReserved (x : Act DartChip) : Act DartChip := x.replyWith .anyByte

/-- `control_read(c)` on a DART (R226). -/
def dartControlRead (resets : Bool) (c : Side) (x : Act DartChip) : Act DartChip :=
  let y := readPointer resets c x
  match (x.chip.ch c).ptr with
  | 0#3 => readRr0 c y
  | 1#3 => readRr1 c y
  | 2#3 =>
    match c with
    | .a => readReserved y
    | .b => readRr2 y
  | _ => readReserved y

/-- A byte `v` written to channel `c`'s control register: `own` where the pointer is `n`, else the dispatch of R211. -/
def dartControlForm (k : Nat) (c : Side) (n : BitVec 3) (v : Byte) (s : State) (own : Act DartChip → Act DartChip) :
    Out :=
  onDart k s fun d => if (d.ch c).ptr = n then own (Act.begin d) else dartControlWrite c v (Act.begin d)

/-- A read of channel `c`'s control register: `own` where the pointer is `n`, else the dispatch of R226. -/
def dartReadForm (k : Nat) (c : Side) (n : BitVec 3) (s : State) (own : Act DartChip → Act DartChip) : Out :=
  onDart k s fun d =>
    if (d.ch c).ptr = n then own (readPointer s.readResetsPtr c (Act.begin d))
    else dartControlRead s.readResetsPtr c (Act.begin d)

/-! The meanings. -/

/-- DART_WR0_NULL (R213). -/
def execDartWr0Null (k : Nat) (c : Side) (x : BitVec 2) (n : BitVec 3) (s : State) : Out :=
  dartControlForm k c 0#3 (wr0Byte x 0#3 n) s (storeWr0 c (wr0Byte x 0#3 n))

/-- DART_WR0_CMD1_NO_FUNCTION (R213). -/
def execDartWr0Cmd1 (k : Nat) (c : Side) (x : BitVec 2) (n : BitVec 3) (s : State) : Out :=
  dartControlForm k c 0#3 (wr0Byte x 1#3 n) s (storeWr0 c (wr0Byte x 1#3 n))

/-- DART_WR0_RESET_EXT_STATUS (R214). -/
def execDartWr0ResetExtStatus (k : Nat) (c : Side) (x : BitVec 2) (n : BitVec 3) (s : State) : Out :=
  dartControlForm k c 0#3 (wr0Byte x 2#3 n) s fun y => resetExtStatus c (storeWr0 c (wr0Byte x 2#3 n) y)

/-- DART_WR0_CHANNEL_RESET (R215). -/
def execDartWr0ChannelReset (k : Nat) (c : Side) (x : BitVec 2) (n : BitVec 3) (s : State) : Out :=
  dartControlForm k c 0#3 (wr0Byte x 3#3 n) s fun y => channelReset c (storeWr0 c (wr0Byte x 3#3 n) y)

/-- DART_WR0_ENABLE_INT_NEXT_RX (R216). -/
def execDartWr0EnableIntNextRx (k : Nat) (c : Side) (x : BitVec 2) (n : BitVec 3) (s : State) : Out :=
  dartControlForm k c 0#3 (wr0Byte x 4#3 n) s fun y => enableNextRx c (storeWr0 c (wr0Byte x 4#3 n) y)

/-- DART_WR0_CMD5_NO_EFFECT (R217). -/
def execDartWr0Cmd5 (k : Nat) (c : Side) (x : BitVec 2) (n : BitVec 3) (s : State) : Out :=
  dartControlForm k c 0#3 (wr0Byte x 5#3 n) s (storeWr0 c (wr0Byte x 5#3 n))

/-- DART_WR0_ERROR_RESET (R218). -/
def execDartWr0ErrorReset (k : Nat) (c : Side) (x : BitVec 2) (n : BitVec 3) (s : State) : Out :=
  dartControlForm k c 0#3 (wr0Byte x 6#3 n) s fun y => errorReset c (storeWr0 c (wr0Byte x 6#3 n) y)

/-- DART_WR0_RETURN_FROM_INT (R219). -/
def execDartWr0ReturnFromInt (k : Nat) (c : Side) (x : BitVec 2) (n : BitVec 3) (s : State) : Out :=
  dartControlForm k c 0#3 (wr0Byte x 7#3 n) s fun y => DartChip.irqReti (storeWr0 c (wr0Byte x 7#3 n) y)

/-- DART_WR1 (R221). -/
def execDartWr1 (k : Nat) (c : Side) (v : Byte) (s : State) : Out :=
  dartControlForm k c 1#3 v s fun y => pointerHome c (writeWr1 c v y)

/-- DART_WR2 (R222). -/
def execDartWr2 (k : Nat) (c : Side) (v : Byte) (s : State) : Out :=
  dartControlForm k c 2#3 v s fun y => pointerHome c (writeWr2 c v y)

/-- DART_WR3 (R223). -/
def execDartWr3 (k : Nat) (c : Side) (v : Byte) (s : State) : Out :=
  dartControlForm k c 3#3 v s fun y => pointerHome c (writeWr3 c v y)

/-- DART_WR4 (R223). -/
def execDartWr4 (k : Nat) (c : Side) (v : Byte) (s : State) : Out :=
  dartControlForm k c 4#3 v s fun y => pointerHome c (writeWr4 c v y)

/-- DART_WR5 (R224). -/
def execDartWr5 (k : Nat) (c : Side) (v : Byte) (s : State) : Out :=
  dartControlForm k c 5#3 v s fun y => pointerHome c (writeWr5 c v y)

/-- DART_WR6_WR7_DISCARD (R225): at pointer 6 or 7 the byte is discarded and the pointer returns to 0. -/
def execDartWr6Wr7Discard (k : Nat) (c : Side) (v : Byte) (s : State) : Out :=
  onDart k s fun d =>
    if (d.ch c).ptr = 6#3 ∨ (d.ch c).ptr = 7#3 then pointerHome c (Act.begin d)
    else dartControlWrite c v (Act.begin d)

/-- DART_READ_RR0 (R227). -/
def execDartReadRr0 (k : Nat) (c : Side) (s : State) : Out := dartReadForm k c 0#3 s (readRr0 c)

/-- DART_READ_RR1 (R228). -/
def execDartReadRr1 (k : Nat) (c : Side) (s : State) : Out := dartReadForm k c 1#3 s (readRr1 c)

/-- DART_READ_RR2 (R229): channel B. -/
def execDartReadRr2 (k : Nat) (s : State) : Out := dartReadForm k .b 2#3 s readRr2

/-- DART_READ_RESERVED (R230): pointers 3 to 7, or 2 on channel A, have no read register. -/
def execDartReadReserved (k : Nat) (c : Side) (s : State) : Out :=
  onDart k s fun d =>
    let n := (d.ch c).ptr.toNat
    if 3 ≤ n ∨ (n = 2 ∧ c = .a) then readReserved (readPointer s.readResetsPtr c (Act.begin d))
    else dartControlRead s.readResetsPtr c (Act.begin d)

end Sys2Proof.Machine
end

