-- ==== Sys2Proof/Machine/DartData.lean ====
section
/-! DEFINITION. DART data register, receive FIFO, receive interrupt (spec/44_dart_data_fifo.md). -/

namespace Sys2Proof.Machine

/-- `data_write(c, v)` on a DART (R240). -/
def dartDataWrite (c : Side) (v : Byte) (x : Act DartChip) : Act DartChip :=
  x.onCh c fun q => { q with txData := v, rr0 := clearBits q.rr0 txEmpty, rr1 := clearBits q.rr1 allSent }

/-- The oldest character leaves the FIFO and its error flags are merged into RR1: framing follows the character, parity
and overrun accumulate (R245). -/
def Channel.pop (q : Channel) : Channel :=
  let e := q.fifo.err.x0 &&& (parityErr ||| overrun ||| framing)
  { q with
    rr1  := clearBits q.rr1 framing ||| e
    fifo := { n := q.fifo.n - 1, data := q.fifo.data.shiftDown, err := q.fifo.err.shiftDown }
    rr0  := if q.fifo.n - 1 = 0 then clearBits q.rr0 rxAvail else q.rr0 }

/-- `data_read(c)` on a DART (R245); with the FIFO empty any value, and no state change. -/
def dartDataRead (c : Side) (x : Act DartChip) : Act DartChip :=
  if (x.chip.ch c).fifo.n = 0 then x.replyWith .anyByte
  else (x.onCh c Channel.pop).replyWith (.byte (x.chip.ch c).fifo.data.x0)

/-- The receive interrupt (R249): the mode decides whether the arrival requests, `special` the cause. -/
def rxInterrupt (c : Side) (special : Bool) (x : Act DartChip) : Act DartChip :=
  let k : BitVec 2 := if special then 3#2 else 2#2
  match (x.chip.ch c).rxIm with
  | 0b00#2 => x
  | 0b01#2 =>
    if (x.chip.ch c).rxFirst then (x.onCh c fun q => { q with rxFirst := false }).raiseInt c k else x
  | _ => x.raiseInt c k

/-- Overflow: the byte is lost, the newest buffered character and RR1 carry OVERRUN (R248). -/
def Channel.overflow (q : Channel) : Channel :=
  { q with
    fifo := { q.fifo with err := { q.fifo.err with x2 := setBits q.fifo.err.x2 overrun } }
    rr1  := setBits q.rr1 overrun }

/-- A character enters the FIFO with its error flags (R248). -/
def Channel.push (q : Channel) (v err : Byte) : Channel :=
  { q with fifo := { n := q.fifo.n + 1, data := q.fifo.data.put q.fifo.n v, err := q.fifo.err.put q.fifo.n err } }

/-- An arriving character is a special receive condition (R248). -/
def Channel.special (q : Channel) (err : Byte) : Bool :=
  hasBits err framing || (hasBits err parityErr && q.rxIm == 0b10#2)

/-- `rx_push(c, byte, err)` (R248). -/
def rxPush (c : Side) (v err : Byte) (x : Act DartChip) : Act DartChip :=
  let q := x.chip.ch c
  if q.fifo.n = Config.fifoDepth then
    rxInterrupt c true ((x.onCh c Channel.overflow).onCh c fun r => { r with rr0 := setBits r.rr0 rxAvail })
  else
    rxInterrupt c (q.special err)
      ((x.onCh c fun r => r.push v err).onCh c fun r => { r with rr0 := setBits r.rr0 rxAvail })

/-- `receive_data(c, byte)`: an injected character carries no error flags (R248). -/
def receiveData (c : Side) (v : Byte) (x : Act DartChip) : Act DartChip := rxPush c v 0x00#8 x

/-! The meanings. -/

/-- DART_DATA_WRITE (R240). -/
def execDartDataWrite (k : Nat) (c : Side) (v : Byte) (s : State) : Out :=
  onDart k s fun d => dartDataWrite c v (Act.begin d)

/-- DART_DATA_READ (R245). -/
def execDartDataRead (k : Nat) (c : Side) (s : State) : Out :=
  onDart k s fun d => dartDataRead c (Act.begin d)

/-- DART_RECEIVE_DATA (R248). -/
def execDartReceiveData (k : Nat) (c : Side) (v : Byte) (s : State) : Out :=
  onDart k s fun d => receiveData c v (Act.begin d)

end Sys2Proof.Machine
end

