-- ==== Sys2Proof/Machine/PioData.lean ====
section
/-! DEFINITION. PIO data register (spec/41_pio_data.md): one rule per mode for the write and for the read. In a mode that
does not select an instruction's row, the same access is what R170 or R175 makes of it (log entry 12). R173 and R178
name port A's fields, since only port A can be Bidirectional (R26; log entry 13). -/

namespace Sys2Proof.Machine

/-- R171. -/
def dataWriteOut (p : Side) (v : Byte) (x : Act PioChip) : Act PioChip :=
  (((x.ready p false).onPort p fun q => { q with outLatch := v }).portWrite p v).ready p true

/-- R172: nothing. -/
def dataWriteIn (x : Act PioChip) : Act PioChip := x

/-- R173: the pins are driven now only while port A's strobe is asserted. -/
def dataWriteBidir (v : Byte) (x : Act PioChip) : Act PioChip :=
  let y := (x.ready .a false).onPort .a fun q => { q with outLatch := v }
  let z := if y.chip.a.stb then y else y.portWrite .a v
  z.ready .a true

/-- R174. -/
def dataWriteBitctl (p : Side) (v : Byte) (x : Act PioChip) : Act PioChip :=
  let y := x.onPort p fun q => { q with outLatch := v }
  y.portWrite p (v &&& ~~~(y.chip.port p).ior)

/-- `data_write(p, v)` on a PIO (R170). -/
def pioDataWrite (p : Side) (v : Byte) (x : Act PioChip) : Act PioChip :=
  match (x.chip.port p).mode with
  | .output => dataWriteOut p v x
  | .input => dataWriteIn x
  | .bidir => dataWriteBidir v x
  | .bitctl => dataWriteBitctl p v x

/-- R176. -/
def dataReadOut (p : Side) (x : Act PioChip) : Act PioChip := x.replyWith (.byte (x.chip.port p).outLatch)

/-- R177: the latch, then the ready pulse. -/
def dataReadIn (p : Side) (x : Act PioChip) : Act PioChip :=
  ((x.replyWith (.byte (x.chip.port p).inLatch)).ready p false).ready p true

/-- R178: port A's latches, port B's ready pulse. -/
def dataReadBidir (x : Act PioChip) : Act PioChip :=
  ((x.replyWith (.byte x.chip.a.seen)).ready .b false).ready .b true

/-- R179. -/
def dataReadBitctl (p : Side) (x : Act PioChip) : Act PioChip := x.replyWith (.byte (x.chip.port p).seen)

/-- `data_read(p)` on a PIO (R175). -/
def pioDataRead (p : Side) (x : Act PioChip) : Act PioChip :=
  match (x.chip.port p).mode with
  | .output => dataReadOut p x
  | .input => dataReadIn p x
  | .bidir => dataReadBidir x
  | .bitctl => dataReadBitctl p x

/-- A byte `v` written to the data register of port `p`: `own` where the port is in mode `m`, else the dispatch of R170. -/
def pioDataWriteForm (k : Nat) (p : Side) (m : Mode) (v : Byte) (s : State) (own : Act PioChip → Act PioChip) : Out :=
  onPio k s fun c =>
    if (c.port p).mode = m then own (Act.begin c) else pioDataWrite p v (Act.begin c)

/-- A read of the data register of port `p`: `own` where the port is in mode `m`, else the dispatch of R175. -/
def pioDataReadForm (k : Nat) (p : Side) (m : Mode) (s : State) (own : Act PioChip → Act PioChip) : Out :=
  onPio k s fun c =>
    if (c.port p).mode = m then own (Act.begin c) else pioDataRead p (Act.begin c)

/-! The meanings. -/

/-- PIO_DATA_WRITE_OUT (R171). -/
def execPioDataWriteOut (k : Nat) (p : Side) (d : Byte) (s : State) : Out :=
  pioDataWriteForm k p .output d s (dataWriteOut p d)

/-- PIO_DATA_WRITE_IN (R172). -/
def execPioDataWriteIn (k : Nat) (p : Side) (d : Byte) (s : State) : Out :=
  pioDataWriteForm k p .input d s dataWriteIn

/-- PIO_DATA_WRITE_BIDIR (R173). -/
def execPioDataWriteBidir (k : Nat) (p : Side) (d : Byte) (s : State) : Out :=
  pioDataWriteForm k p .bidir d s (dataWriteBidir d)

/-- PIO_DATA_WRITE_BITCTL (R174). -/
def execPioDataWriteBitctl (k : Nat) (p : Side) (d : Byte) (s : State) : Out :=
  pioDataWriteForm k p .bitctl d s (dataWriteBitctl p d)

/-- PIO_DATA_READ_OUT (R176). -/
def execPioDataReadOut (k : Nat) (p : Side) (s : State) : Out :=
  pioDataReadForm k p .output s (dataReadOut p)

/-- PIO_DATA_READ_IN (R177). -/
def execPioDataReadIn (k : Nat) (p : Side) (s : State) : Out :=
  pioDataReadForm k p .input s (dataReadIn p)

/-- PIO_DATA_READ_BIDIR (R178). -/
def execPioDataReadBidir (k : Nat) (p : Side) (s : State) : Out :=
  pioDataReadForm k p .bidir s dataReadBidir

/-- PIO_DATA_READ_BITCTL (R179). -/
def execPioDataReadBitctl (k : Nat) (p : Side) (s : State) : Out :=
  pioDataReadForm k p .bitctl s (dataReadBitctl p)

end Sys2Proof.Machine
end

