-- ==== Sys2Proof/Machine/PioControl.lean ====
section
/-! DEFINITION. PIO control register (spec/40_pio_control.md). Each instruction is a byte of one form written to a control
register. Where the port's decode state selects the form, the form's own rule applies; in another decode state the same
byte is what R150 makes of it (R130, R391; log entry 12). -/

namespace Sys2Proof.Machine

/-! The rules, one operation each. -/

/-- R152. -/
def vectorWord (p : Side) (v : Byte) (x : Act PioChip) : Act PioChip :=
  x.onPort p fun q => { q with vector := v &&& 0xFE#8 }

/-- R153. -/
def modeOutput (p : Side) (x : Act PioChip) : Act PioChip :=
  ((x.onPort p fun q => { q with mode := .output }).ready p false).ready p true

/-- R154. -/
def modeInput (p : Side) (x : Act PioChip) : Act PioChip := x.onPort p fun q => { q with mode := .input }

/-- R155: port B ignores the word. -/
def modeBidir (p : Side) (x : Act PioChip) : Act PioChip :=
  match p with
  | .a => x.onPort .a fun q => { q with mode := .bidir }
  | .b => x

/-- R156. -/
def modeBitctl (p : Side) (x : Act PioChip) : Act PioChip :=
  x.onPort p fun q => { q with mode := .bitctl, cws := .setDir }

/-- R157. -/
def intControlWord (p : Side) (v : Byte) (x : Act PioChip) : Act PioChip :=
  let y := x.onPort p fun q => { q with icw := v }
  if v.getLsbD 4 then y.onPort p fun q => { q with cws := .setMask, src := q.src.withdrawn }
  else (y.onPort p fun q => { q with ie := v.getLsbD 7 }).apply PioChip.checkInterrupt

/-- R159: nothing. -/
def reservedWord (x : Act PioChip) : Act PioChip := x

/-- R160. -/
def directionByte (p : Side) (v : Byte) (x : Act PioChip) : Act PioChip :=
  x.onPort p fun q => { q with ior := v, matched := false, cws := .normal }

/-- R161. -/
def maskByte (p : Side) (v : Byte) (x : Act PioChip) : Act PioChip :=
  (x.onPort p fun q => { q with mask := v, matched := false, ie := q.icw.getLsbD 7, cws := .normal }).apply
    PioChip.checkInterrupt

/-- The mode field selects the mode word (R153 to R156). -/
def modeWord (p : Side) (v : Byte) (x : Act PioChip) : Act PioChip :=
  match v.extractLsb' 6 2 with
  | 0b00#2 => modeOutput p x
  | 0b01#2 => modeInput p x
  | 0b10#2 => modeBidir p x
  | _ => modeBitctl p x

/-- `control_write(p, v)` on a PIO (R150). -/
def pioControlWrite (p : Side) (v : Byte) (x : Act PioChip) : Act PioChip :=
  match (x.chip.port p).cws with
  | .setDir => directionByte p v x
  | .setMask => maskByte p v x
  | .normal =>
    if v.getLsbD 0 = false then vectorWord p v x
    else if v.extractLsb' 0 4 = 0xF#4 then modeWord p v x
    else if v.extractLsb' 0 4 = 0x7#4 then intControlWord p v x
    else reservedWord x

/-- `control_read(p)` on a PIO (R165): the data read with its side effects. -/
def pioControlRead (p : Side) (x : Act PioChip) : Act PioChip := pioDataRead p x

/-- A byte `v` written to the control register of port `p`: `own` where the port is in the decode state `w` that selects
the instruction's form, else the dispatch of R150. -/
def pioControlForm (k : Nat) (p : Side) (w : Cws) (v : Byte) (s : State) (own : Act PioChip → Act PioChip) : Out :=
  onPio k s fun c =>
    if (c.port p).cws = w then own (Act.begin c) else pioControlWrite p v (Act.begin c)

/-! The meanings. -/

/-- PIO_VECTOR_WORD (R152). -/
def execPioVectorWord (k : Nat) (p : Side) (v : BitVec 7) (s : State) : Out :=
  pioControlForm k p .normal (vectorByte v) s (vectorWord p (vectorByte v))

/-- PIO_MODE_OUTPUT (R153). -/
def execPioModeOutput (k : Nat) (p : Side) (x : BitVec 2) (s : State) : Out :=
  pioControlForm k p .normal (modeByte 0b00#2 x) s (modeOutput p)

/-- PIO_MODE_INPUT (R154). -/
def execPioModeInput (k : Nat) (p : Side) (x : BitVec 2) (s : State) : Out :=
  pioControlForm k p .normal (modeByte 0b01#2 x) s (modeInput p)

/-- PIO_MODE_BIDIR (R155). -/
def execPioModeBidir (k : Nat) (p : Side) (x : BitVec 2) (s : State) : Out :=
  pioControlForm k p .normal (modeByte 0b10#2 x) s (modeBidir p)

/-- PIO_MODE_BITCTL (R156). -/
def execPioModeBitctl (k : Nat) (p : Side) (x : BitVec 2) (s : State) : Out :=
  pioControlForm k p .normal (modeByte 0b11#2 x) s (modeBitctl p)

/-- PIO_INT_CONTROL_WORD (R157). -/
def execPioIntControlWord (k : Nat) (p : Side) (ei ao hl mf : Bool) (s : State) : Out :=
  pioControlForm k p .normal (icwByte ei ao hl mf) s (intControlWord p (icwByte ei ao hl mf))

/-- PIO_RESERVED_1 (R159). -/
def execPioReserved1 (k : Nat) (p : Side) (x : BitVec 4) (s : State) : Out :=
  pioControlForm k p .normal (reservedByte x 0x1#4) s reservedWord

/-- PIO_RESERVED_3 (R159). -/
def execPioReserved3 (k : Nat) (p : Side) (x : BitVec 4) (s : State) : Out :=
  pioControlForm k p .normal (reservedByte x 0x3#4) s reservedWord

/-- PIO_RESERVED_5 (R159). -/
def execPioReserved5 (k : Nat) (p : Side) (x : BitVec 4) (s : State) : Out :=
  pioControlForm k p .normal (reservedByte x 0x5#4) s reservedWord

/-- PIO_RESERVED_9 (R159). -/
def execPioReserved9 (k : Nat) (p : Side) (x : BitVec 4) (s : State) : Out :=
  pioControlForm k p .normal (reservedByte x 0x9#4) s reservedWord

/-- PIO_RESERVED_B (R159). -/
def execPioReservedB (k : Nat) (p : Side) (x : BitVec 4) (s : State) : Out :=
  pioControlForm k p .normal (reservedByte x 0xB#4) s reservedWord

/-- PIO_RESERVED_D (R159). -/
def execPioReservedD (k : Nat) (p : Side) (x : BitVec 4) (s : State) : Out :=
  pioControlForm k p .normal (reservedByte x 0xD#4) s reservedWord

/-- PIO_DIRECTION_BYTE (R160). -/
def execPioDirectionByte (k : Nat) (p : Side) (d : Byte) (s : State) : Out :=
  pioControlForm k p .setDir d s (directionByte p d)

/-- PIO_MASK_BYTE (R161). -/
def execPioMaskByte (k : Nat) (p : Side) (m : Byte) (s : State) : Out :=
  pioControlForm k p .setMask m s (maskByte p m)

/-- PIO_CONTROL_READ (R165). -/
def execPioControlRead (k : Nat) (p : Side) (s : State) : Out :=
  onPio k s fun c => pioControlRead p (Act.begin c)

end Sys2Proof.Machine
end

