-- ==== Sys2Proof/Machine/Bus.lean ====
section
/-! DEFINITION. The bus accesses of R83, R84, R110: the select bits choose one of the four operations of a chip. -/

namespace Sys2Proof.Machine

/-- A bus write on a chip (R84, R110). -/
def busWriteOn (selC selB : Bool) (v : Byte) : Chip → Act Chip
  | .pio c =>
    let p := Side.ofBit selB
    (if selC then pioControlWrite p v (Act.begin c) else pioDataWrite p v (Act.begin c)).lift .pio
  | .dart d =>
    let c := Side.ofBit selB
    (if selC then dartControlWrite c v (Act.begin d) else dartDataWrite c v (Act.begin d)).lift .dart

/-- A bus read on a chip (R83, R110). -/
def busReadOn (resets : Bool) (selC selB : Bool) : Chip → Act Chip
  | .pio c =>
    let p := Side.ofBit selB
    (if selC then pioControlRead p (Act.begin c) else pioDataRead p (Act.begin c)).lift .pio
  | .dart d =>
    let c := Side.ofBit selB
    (if selC then dartControlRead resets c (Act.begin d) else dartDataRead c (Act.begin d)).lift .dart

/-- BUS_WRITE (R84). -/
def execBusWrite (k : Nat) (selC selB : Bool) (v : Byte) (s : State) : Out := onChip k s (busWriteOn selC selB v)

/-- BUS_READ (R83). -/
def execBusRead (k : Nat) (selC selB : Bool) (s : State) : Out := onChip k s (busReadOn s.readResetsPtr selC selB)

end Sys2Proof.Machine
end

