-- ==== Sys2Proof/Machine/Chain.lean ====
section
/-! DEFINITION. The daisy-chain contract of one chip (spec/47_daisy_chain.md) and the chain-level priority encoder
(spec/60_exceptions.md). -/

namespace Sys2Proof.Machine

/-- IRQ_STATE (R324): read-only. -/
def execIrqState (k : Nat) (s : State) : Out :=
  onChip k s fun c => (Act.begin c).replyWith (.irq c.irqState)

/-- IRQ_ACK (R325). -/
def execIrqAck (k : Nat) (s : State) : Out := onChip k s Chip.irqAck

/-- IRQ_RETI (R327). -/
def execIrqReti (k : Nat) (s : State) : Out := onChip k s Chip.irqReti

/-- CHAIN_INT (R351): read-only. -/
def execChainInt (s : State) : Out := .next { s with answer := .requester s.requester }

/-- CHAIN_ACK (R352): with no requester, any value and no state change. -/
def execChainAck (s : State) : Out :=
  match s.requester with
  | some k => onChip k s Chip.irqAck
  | none => .next { s with answer := .byte (Config.freeByte s.draws), draws := s.draws + 1 }

/-- CHAIN_RETI (R354): the first chip under service, or a diagnostic. -/
def execChainReti (s : State) : Out :=
  match s.served with
  | some k => onChip k s Chip.irqReti
  | none => .next { s with answer := .none, trace := s.trace ++ [.chain .retiWithoutService] }

end Sys2Proof.Machine
end

