-- ==== Sys2Proof/Machine/ChipReset.lean ====
section
/-! DEFINITION. Reset of one chip (spec/70_reset_and_hazards.md). -/

namespace Sys2Proof.Machine

/-- What reset does to a port before its ready line goes low (R380). -/
def Port.resetFields (q : Port) : Port :=
  { q with
    mode := .input, cws := .normal, ie := false, icw := q.icw &&& 0x7F#8, mask := 0xFF#8, outLatch := 0x00#8,
    matched := false, src := Source.idle }

/-- R380 for one port. -/
def resetPort (p : Side) (x : Act PioChip) : Act PioChip := (x.onPort p Port.resetFields).ready p false

/-- `reset` of a PIO (R380). -/
def pioReset (x : Act PioChip) : Act PioChip := resetPort .b (resetPort .a x)

/-- What reset does to a channel before its output lines are driven (R383). -/
def Channel.resetFields (q : Channel) : Channel :=
  { q with
    wr0 := 0x00#8, wr1 := 0x00#8, wr2 := 0x00#8, wr3 := 0x00#8, wr4 := 0x00#8, wr5 := 0x00#8,
    rr0 := txEmpty ||| lineBits q, rr1 := allSent, rr0Latch := false, rxFirst := false,
    fifo := { q.fifo with n := 0 }, rxState := .start, txState := .start, rxBits := 0, txBits := 0,
    rxPar := false, txPar := false, rxErr := 0x00#8, rxDiv := 0, txDiv := 0, cause := 0#2, src := Source.idle }

/-- R383 for one channel. -/
def resetChannel (c : Side) (x : Act DartChip) : Act DartChip :=
  (((x.onCh c Channel.resetFields).driveRts c true).driveDtr c true).driveTxd c true

/-- `reset` of a DART (R383). -/
def dartReset (x : Act DartChip) : Act DartChip := resetChannel .b (resetChannel .a x)

/-- RESET_PIO (R380). -/
def execResetPio (k : Nat) (s : State) : Out := onPio k s fun c => pioReset (Act.begin c)

/-- RESET_DART (R383). -/
def execResetDart (k : Nat) (s : State) : Out := onDart k s fun d => dartReset (Act.begin d)

end Sys2Proof.Machine
end

