-- ==== Sys2Proof/Machine/DartClock.lean ====
section
/-! DEFINITION. DART baud-rate divider and bit-framing state machines (spec/46_dart_clock_framing.md). -/

namespace Sys2Proof.Machine

/-! Receive (R290 to R296). -/

/-- `RxD(c)`: the level now on the receive line (R11, U16; log entry 8). -/
def rxdNow (c : Side) (x : Act DartChip) : Level := (x.chip.ch c).rxd

/-- R291. -/
def rxStart (c : Side) (x : Act DartChip) : Act DartChip :=
  if (x.chip.ch c).rxEn && !rxdNow c x then
    x.onCh c fun q =>
      { q with rxShift := 0x00#8, rxBits := 0, rxPar := false, rxErr := 0x00#8, rxState := .data }
  else x

/-- R292: the bit enters at bit 7. -/
def Channel.shiftIn (q : Channel) (b : Level) : Channel :=
  let n := q.rxBits + 1
  { q with
    rxShift := (q.rxShift >>> 1) ||| (BitVec.ofBool b ++ 0#7)
    rxPar   := xor q.rxPar b
    rxBits  := n
    rxState := if q.rxWl ≤ n then (if q.parEn then .parity else .stop) else q.rxState }

/-- R292. -/
def rxData (c : Side) (x : Act DartChip) : Act DartChip := x.onCh c fun q => q.shiftIn (rxdNow c x)

/-- R294. -/
def rxParity (c : Side) (x : Act DartChip) : Act DartChip :=
  let q := x.chip.ch c
  let y :=
    if rxdNow c x != parityBit q.parEven q.rxPar then
      let z := x.onCh c fun r => { r with rxErr := setBits r.rxErr parityErr }
      if q.rxIm == 0b10#2 then z.raiseInt c 3#2 else z
    else x
  y.onCh c fun r => { r with rxState := .stop }

/-- A stop bit that is not 1 is a framing error (R295, R296). -/
def sampleStop (c : Side) (x : Act DartChip) : Act DartChip :=
  if rxdNow c x then x else x.onCh c fun q => { q with rxErr := setBits q.rxErr framing }

/-- The character is delivered as it stands in the shift register and the receiver waits again (R293, R295, R296). -/
def deliver (c : Side) (x : Act DartChip) : Act DartChip :=
  (rxPush c (x.chip.ch c).rxShift (x.chip.ch c).rxErr x).onCh c fun q => { q with rxState := .start }

/-- R295. -/
def rxStop (c : Side) (x : Act DartChip) : Act DartChip :=
  let y := sampleStop c x
  if (x.chip.ch c).oneStop then deliver c y else y.onCh c fun q => { q with rxState := .stop2 }

/-- R296. -/
def rxStop2 (c : Side) (x : Act DartChip) : Act DartChip := deliver c (sampleStop c x)

/-- `rx_step(c)` (R290). -/
def rxStep (c : Side) (x : Act DartChip) : Act DartChip :=
  match (x.chip.ch c).rxState with
  | .start => rxStart c x
  | .data => rxData c x
  | .parity => rxParity c x
  | .stop => rxStop c x
  | .stop2 => rxStop2 c x

/-! Transmit (R300 to R306). -/

/-- R301. -/
def txStart (c : Side) (x : Act DartChip) : Act DartChip :=
  let q := x.chip.ch c
  if q.txEn && !hasBits q.rr0 txEmpty then
    let y := (x.driveTxd c false).onCh c fun r =>
      { r with txShift := r.txData, txBits := 0, txPar := false, rr0 := setBits r.rr0 txEmpty }
    let z := if q.txIe then y.raiseInt c 0#2 else y
    z.onCh c fun r => { r with txState := .data }
  else if q.sendBreak then x.driveTxd c false
  else x.driveTxd c true

/-- R302: the bit sent leaves at bit 0. -/
def Channel.shiftOut (q : Channel) : Channel :=
  let n := q.txBits + 1
  { q with
    txShift := q.txShift >>> 1
    txPar   := xor q.txPar (q.txShift.getLsbD 0)
    txBits  := n
    txState := if q.txWl ≤ n then (if q.parEn then .parity else .stop) else q.txState }

/-- R302. -/
def txData (c : Side) (x : Act DartChip) : Act DartChip :=
  (x.driveTxd c ((x.chip.ch c).txShift.getLsbD 0)).onCh c Channel.shiftOut

/-- R303. -/
def txParity (c : Side) (x : Act DartChip) : Act DartChip :=
  (x.driveTxd c (parityBit (x.chip.ch c).parEven (x.chip.ch c).txPar)).onCh c fun q => { q with txState := .stop }

/-- `tx_finish(c)` (R306): all sent, and the deferred release of RTS. -/
def txFinish (c : Side) (x : Act DartChip) : Act DartChip :=
  if hasBits (x.chip.ch c).rr0 txEmpty then
    let y := x.onCh c fun q => { q with rr1 := setBits q.rr1 allSent }
    if !(y.chip.ch c).rtsBit && !(y.chip.ch c).rts then y.driveRts c true else y
  else x

/-- R304. -/
def txStop (c : Side) (x : Act DartChip) : Act DartChip :=
  let y := x.driveTxd c true
  if (x.chip.ch c).oneStop then (txFinish c y).onCh c fun q => { q with txState := .start }
  else y.onCh c fun q => { q with txState := .stop2 }

/-- R305. -/
def txStop2 (c : Side) (x : Act DartChip) : Act DartChip :=
  (txFinish c (x.driveTxd c true)).onCh c fun q => { q with txState := .start }

/-- `tx_step(c)` (R300). -/
def txStep (c : Side) (x : Act DartChip) : Act DartChip :=
  match (x.chip.ch c).txState with
  | .start => txStart c x
  | .data => txData c x
  | .parity => txParity c x
  | .stop => txStop c x
  | .stop2 => txStop2 c x

/-! The dividers (R282). -/

/-- `rx_clock(c)` (R282). -/
def rxClock (c : Side) (x : Act DartChip) : Act DartChip :=
  let q := x.chip.ch c
  if q.mult ≤ q.rxDiv + 1 then rxStep c (x.onCh c fun r => { r with rxDiv := 0 })
  else x.onCh c fun r => { r with rxDiv := r.rxDiv + 1 }

/-- `tx_clock(c)` (R282). -/
def txClock (c : Side) (x : Act DartChip) : Act DartChip :=
  let q := x.chip.ch c
  if q.mult ≤ q.txDiv + 1 then txStep c (x.onCh c fun r => { r with txDiv := 0 })
  else x.onCh c fun r => { r with txDiv := r.txDiv + 1 }

/-! The meanings. -/

/-- DART_RXCA_W (R283). -/
def execDartRxcaW (k : Nat) (s : State) : Out := onDart k s fun d => rxClock .a (Act.begin d)

/-- DART_TXCA_W (R284). -/
def execDartTxcaW (k : Nat) (s : State) : Out := onDart k s fun d => txClock .a (Act.begin d)

/-- DART_RXTXCB_W (R285): receive side first. -/
def execDartRxtxcbW (k : Nat) (s : State) : Out := onDart k s fun d => txClock .b (rxClock .b (Act.begin d))

end Sys2Proof.Machine
end

