-- ==== Sys2Proof/Machine/DartLines.lean ====
section
/-! DEFINITION. DART modem input lines (spec/45_dart_lines.md). -/

namespace Sys2Proof.Machine

/-- The common tail of R260 once the latch has followed the pin: RR0 follows unless it is latched, and with EXT_IE the
change requests an interrupt of cause 1 and latches RR0. -/
def lineStatus (c : Side) (bit : Byte) (level : Level) (x : Act DartChip) : Act DartChip :=
  if (x.chip.ch c).rr0Latch then x
  else
    let y := x.onCh c fun q => { q with rr0 := putBits (!level) q.rr0 bit }
    if (y.chip.ch c).extIe then (y.raiseInt c 1#2).onCh c fun q => { q with rr0Latch := true } else y

/-- The auto-enable of R260: only on the asserting edge, only with AUTO_EN. -/
def autoEnable (c : Side) (level : Level) (x : Act DartChip) (auto : Channel → Channel) : Act DartChip :=
  if !level && (x.chip.ch c).autoEn then x.onCh c auto else x

/-- `cts_w(c, level)` (R261): auto-enable sets TX_EN. -/
def ctsW (c : Side) (level : Level) (x : Act DartChip) : Act DartChip :=
  if level = (x.chip.ch c).cts then x
  else lineStatus c ctsBit level <|
    autoEnable c level (x.onCh c fun q => { q with cts := level }) fun q => { q with wr5 := setBits q.wr5 0x08#8 }

/-- `dcd_w(c, level)` (R262): auto-enable sets RX_EN. -/
def dcdW (c : Side) (level : Level) (x : Act DartChip) : Act DartChip :=
  if level = (x.chip.ch c).dcd then x
  else lineStatus c dcdBit level <|
    autoEnable c level (x.onCh c fun q => { q with dcd := level }) fun q => { q with wr3 := setBits q.wr3 0x01#8 }

/-- `ri_w(c, level)` (R263): no auto-enable. -/
def riW (c : Side) (level : Level) (x : Act DartChip) : Act DartChip :=
  if level = (x.chip.ch c).ri then x
  else lineStatus c riBit level (x.onCh c fun q => { q with ri := level })

/-! The meanings. -/

/-- DART_CTS_W (R261). -/
def execDartCtsW (k : Nat) (c : Side) (l : Level) (s : State) : Out := onDart k s fun d => ctsW c l (Act.begin d)

/-- DART_DCD_W (R262). -/
def execDartDcdW (k : Nat) (c : Side) (l : Level) (s : State) : Out := onDart k s fun d => dcdW c l (Act.begin d)

/-- DART_RI_W (R263). -/
def execDartRiW (k : Nat) (c : Side) (l : Level) (s : State) : Out := onDart k s fun d => riW c l (Act.begin d)

end Sys2Proof.Machine
end

