-- ==== Sys2Proof/Machine/PioStrobe.lean ====
section
/-! DEFINITION. PIO strobe lines and the Bit-Control poll (spec/42_pio_strobe_poll.md). In a mode that does not select an
instruction's row, the same strobe is what R190 makes of it (log entry 12). -/

namespace Sys2Proof.Machine

/-- A rising edge: the stored level was 0, the new level is 1 (R190). -/
def rising (q : Port) (l : Level) : Bool := !q.stb && l

/-- `PortRead(p)`: the byte the external device now presents (R11, U16; log entry 8). -/
def portRead (x : Act PioChip) (p : Side) : Byte := (x.chip.port p).pins

/-- R192. -/
def strobeOut (p : Side) (l : Level) (x : Act PioChip) : Act PioChip :=
  if rising (x.chip.port p) l then (x.trigger p).ready p false else x

/-- R193: the latch is loaded at every call with level 0. -/
def strobeIn (p : Side) (l : Level) (x : Act PioChip) : Act PioChip :=
  let y := if l then x else x.onPort p fun q => { q with inLatch := portRead x p }
  if rising (x.chip.port p) l then (y.trigger p).ready p false else y

/-- R194. -/
def strobeBidirA (l : Level) (x : Act PioChip) : Act PioChip :=
  if l then x else x.portWrite .a x.chip.a.outLatch

/-- R195: port B's strobe serves port A's input side. -/
def strobeBWhileABidir (l : Level) (x : Act PioChip) : Act PioChip :=
  let y := if l then x else x.onPort .a fun q => { q with inLatch := portRead x .a }
  if rising x.chip.b l && x.chip.a.stb then (y.trigger .b).ready .b false else y

/-- R196: nothing. -/
def strobeBitctl (x : Act PioChip) : Act PioChip := x

/-- The last line of R190: the level is stored in every mode. -/
def storeStrobe (p : Side) (l : Level) (x : Act PioChip) : Act PioChip := x.onPort p fun q => { q with stb := l }

/-- What a strobe does by the port's own mode (R190); port B is never Bidirectional (R26; log entry 13). -/
def strobeByMode (p : Side) (l : Level) (x : Act PioChip) : Act PioChip :=
  match (x.chip.port p).mode with
  | .output => strobeOut p l x
  | .input => strobeIn p l x
  | .bidir =>
    match p with
    | .a => strobeBidirA l x
    | .b => x
  | .bitctl => strobeBitctl x

/-- The action of `strobe(p, level)` before the level is stored (R190). -/
def strobeAction (p : Side) (l : Level) (x : Act PioChip) : Act PioChip :=
  if p = .b ∧ x.chip.a.mode = .bidir then strobeBWhileABidir l x else strobeByMode p l x

/-- `strobe(p, level)` (R190). -/
def pioStrobe (p : Side) (l : Level) (x : Act PioChip) : Act PioChip := storeStrobe p l (strobeAction p l x)

/-- The strobe of port `p` is handled by its own mode (R190). -/
def PioChip.ownStrobe (c : PioChip) (p : Side) : Bool :=
  match p with
  | .a => true
  | .b => c.a.mode != .bidir

/-- A strobe of port `p`: `own` where the port's own mode `m` selects the row, else the dispatch of R190; then the level
is stored. -/
def pioStrobeForm (k : Nat) (p : Side) (m : Mode) (l : Level) (s : State) (own : Act PioChip → Act PioChip) : Out :=
  onPio k s fun c =>
    if c.ownStrobe p ∧ (c.port p).mode = m then storeStrobe p l (own (Act.begin c)) else pioStrobe p l (Act.begin c)

/-! The poll. -/

/-- The poll of one port (R200): only in Bit-Control mode; a request only when the match rises (R202). -/
def pollPort (p : Side) (x : Act PioChip) : Act PioChip :=
  if (x.chip.port p).mode = .bitctl then
    let y := x.onPort p fun q => { q with inLatch := portRead x p }
    let m := matchCondition (y.chip.port p) (y.chip.port p).seen
    let z := if !(y.chip.port p).matched && m then y.trigger p else y
    z.onPort p fun q => { q with matched := m }
  else x

/-! The meanings. -/

/-- PIO_STROBE_OUT (R192). -/
def execPioStrobeOut (k : Nat) (p : Side) (l : Level) (s : State) : Out :=
  pioStrobeForm k p .output l s (strobeOut p l)

/-- PIO_STROBE_IN (R193). -/
def execPioStrobeIn (k : Nat) (p : Side) (l : Level) (s : State) : Out :=
  pioStrobeForm k p .input l s (strobeIn p l)

/-- PIO_STROBE_BIDIR_A (R194). -/
def execPioStrobeBidirA (k : Nat) (l : Level) (s : State) : Out :=
  pioStrobeForm k .a .bidir l s (strobeBidirA l)

/-- PIO_STROBE_B_WHILE_A_BIDIR (R195). -/
def execPioStrobeBWhileABidir (k : Nat) (l : Level) (s : State) : Out :=
  onPio k s fun c =>
    if c.a.mode = .bidir then storeStrobe .b l (strobeBWhileABidir l (Act.begin c)) else pioStrobe .b l (Act.begin c)

/-- PIO_STROBE_BITCTL (R196). -/
def execPioStrobeBitctl (k : Nat) (p : Side) (l : Level) (s : State) : Out :=
  pioStrobeForm k p .bitctl l s strobeBitctl

/-- PIO_POLL_TICK (R200): port A before port B. -/
def execPioPollTick (k : Nat) (s : State) : Out :=
  onPio k s fun c => pollPort .b (pollPort .a (Act.begin c))

end Sys2Proof.Machine
end

