-- ==== Sys2Proof/Machine/Dispatch.lean ====
section
/-! DEFINITION. One arm per constructor of Instr: the instruction's meaning. -/

namespace Sys2Proof.Machine

def exec (i : Instr) (s : State) : Host.Outcome State Fault Refusal :=
  match i with
  | .busWrite k selC selB d => Sys2Proof.Machine.execBusWrite k selC selB d s
  | .busRead k selC selB => Sys2Proof.Machine.execBusRead k selC selB s
  | .pioVectorWord k p v => Sys2Proof.Machine.execPioVectorWord k p v s
  | .pioModeOutput k p x => Sys2Proof.Machine.execPioModeOutput k p x s
  | .pioModeInput k p x => Sys2Proof.Machine.execPioModeInput k p x s
  | .pioModeBidir k p x => Sys2Proof.Machine.execPioModeBidir k p x s
  | .pioModeBitctl k p x => Sys2Proof.Machine.execPioModeBitctl k p x s
  | .pioIntControlWord k p ei ao hl mf => Sys2Proof.Machine.execPioIntControlWord k p ei ao hl mf s
  | .pioReserved1 k p x => Sys2Proof.Machine.execPioReserved1 k p x s
  | .pioReserved3 k p x => Sys2Proof.Machine.execPioReserved3 k p x s
  | .pioReserved5 k p x => Sys2Proof.Machine.execPioReserved5 k p x s
  | .pioReserved9 k p x => Sys2Proof.Machine.execPioReserved9 k p x s
  | .pioReservedB k p x => Sys2Proof.Machine.execPioReservedB k p x s
  | .pioReservedD k p x => Sys2Proof.Machine.execPioReservedD k p x s
  | .pioDirectionByte k p d => Sys2Proof.Machine.execPioDirectionByte k p d s
  | .pioMaskByte k p m => Sys2Proof.Machine.execPioMaskByte k p m s
  | .pioControlRead k p => Sys2Proof.Machine.execPioControlRead k p s
  | .pioDataWriteOut k p d => Sys2Proof.Machine.execPioDataWriteOut k p d s
  | .pioDataReadOut k p => Sys2Proof.Machine.execPioDataReadOut k p s
  | .pioDataWriteIn k p d => Sys2Proof.Machine.execPioDataWriteIn k p d s
  | .pioDataReadIn k p => Sys2Proof.Machine.execPioDataReadIn k p s
  | .pioDataWriteBidir k p d => Sys2Proof.Machine.execPioDataWriteBidir k p d s
  | .pioDataReadBidir k p => Sys2Proof.Machine.execPioDataReadBidir k p s
  | .pioDataWriteBitctl k p d => Sys2Proof.Machine.execPioDataWriteBitctl k p d s
  | .pioDataReadBitctl k p => Sys2Proof.Machine.execPioDataReadBitctl k p s
  | .pioStrobeOut k p l => Sys2Proof.Machine.execPioStrobeOut k p l s
  | .pioStrobeIn k p l => Sys2Proof.Machine.execPioStrobeIn k p l s
  | .pioStrobeBidirA k l => Sys2Proof.Machine.execPioStrobeBidirA k l s
  | .pioStrobeBWhileABidir k l => Sys2Proof.Machine.execPioStrobeBWhileABidir k l s
  | .pioStrobeBitctl k p l => Sys2Proof.Machine.execPioStrobeBitctl k p l s
  | .pioPollTick k => Sys2Proof.Machine.execPioPollTick k s
  | .dartWr0Null k c x ptr => Sys2Proof.Machine.execDartWr0Null k c x ptr s
  | .dartWr0Cmd1 k c x ptr => Sys2Proof.Machine.execDartWr0Cmd1 k c x ptr s
  | .dartWr0ResetExtStatus k c x ptr => Sys2Proof.Machine.execDartWr0ResetExtStatus k c x ptr s
  | .dartWr0ChannelReset k c x ptr => Sys2Proof.Machine.execDartWr0ChannelReset k c x ptr s
  | .dartWr0EnableIntNextRx k c x ptr => Sys2Proof.Machine.execDartWr0EnableIntNextRx k c x ptr s
  | .dartWr0Cmd5 k c x ptr => Sys2Proof.Machine.execDartWr0Cmd5 k c x ptr s
  | .dartWr0ErrorReset k c x ptr => Sys2Proof.Machine.execDartWr0ErrorReset k c x ptr s
  | .dartWr0ReturnFromInt k c x ptr => Sys2Proof.Machine.execDartWr0ReturnFromInt k c x ptr s
  | .dartWr1 k c v => Sys2Proof.Machine.execDartWr1 k c v s
  | .dartWr2 k c v => Sys2Proof.Machine.execDartWr2 k c v s
  | .dartWr3 k c v => Sys2Proof.Machine.execDartWr3 k c v s
  | .dartWr4 k c v => Sys2Proof.Machine.execDartWr4 k c v s
  | .dartWr5 k c v => Sys2Proof.Machine.execDartWr5 k c v s
  | .dartWr6Wr7Discard k c x => Sys2Proof.Machine.execDartWr6Wr7Discard k c x s
  | .dartReadRr0 k c => Sys2Proof.Machine.execDartReadRr0 k c s
  | .dartReadRr1 k c => Sys2Proof.Machine.execDartReadRr1 k c s
  | .dartReadRr2 k => Sys2Proof.Machine.execDartReadRr2 k s
  | .dartReadReserved k c => Sys2Proof.Machine.execDartReadReserved k c s
  | .dartDataWrite k c d => Sys2Proof.Machine.execDartDataWrite k c d s
  | .dartDataRead k c => Sys2Proof.Machine.execDartDataRead k c s
  | .dartReceiveData k c d => Sys2Proof.Machine.execDartReceiveData k c d s
  | .dartCtsW k c l => Sys2Proof.Machine.execDartCtsW k c l s
  | .dartDcdW k c l => Sys2Proof.Machine.execDartDcdW k c l s
  | .dartRiW k c l => Sys2Proof.Machine.execDartRiW k c l s
  | .dartRxcaW k => Sys2Proof.Machine.execDartRxcaW k s
  | .dartTxcaW k => Sys2Proof.Machine.execDartTxcaW k s
  | .dartRxtxcbW k => Sys2Proof.Machine.execDartRxtxcbW k s
  | .irqState k => Sys2Proof.Machine.execIrqState k s
  | .irqAck k => Sys2Proof.Machine.execIrqAck k s
  | .irqReti k => Sys2Proof.Machine.execIrqReti k s
  | .chainInt => Sys2Proof.Machine.execChainInt s
  | .chainAck => Sys2Proof.Machine.execChainAck s
  | .chainReti => Sys2Proof.Machine.execChainReti s
  | .resetPio k => Sys2Proof.Machine.execResetPio k s
  | .resetDart k => Sys2Proof.Machine.execResetDart k s

end Sys2Proof.Machine
end

