-- ==== Sys2Proof/Machine/Environment.lean ====
section
/-! DEFINITION. What the environment does besides issuing operations: it changes what a sampled pin shows, and the
fixed-rate clock timers of R286 tick. None of these is a row of the opcode table. -/

namespace Sys2Proof.Machine

/-- `RX_CLOCK_HZ` of a channel (R7). -/
def DartConfig.rxHz (g : DartConfig) (c : Side) : Nat := c.pick g.rxHzA g.rxHzB

/-- `TX_CLOCK_HZ` of a channel (R7). -/
def DartConfig.txHz (g : DartConfig) (c : Side) : Nat := c.pick g.txHzA g.txHzB

/-- A tick of a fixed-rate timer is one pulse (R286); a rate of 0 means there is no such timer. -/
def timerTick (k : Nat) (rate : DartConfig → Nat) (pulse : Act DartChip → Act DartChip) (s : State) : Out :=
  match s.chips[k]? with
  | some (.dart d) => if rate d.cfg = 0 then .fault (.noSuchTimer k) else onDart k s fun e => pulse (Act.begin e)
  | some (.pio _) => .fault (.wrongKind k)
  | none => .fault (.noSuchChip k)

/-- The byte now on the pins of port `p` (R11, R85). A change of a pin is no operation of the block: it drives nothing and
leaves the last result standing. -/
def setPins (k : Nat) (p : Side) (v : Byte) (s : State) : Out :=
  match s.chips[k]? with
  | some (.pio c) => .next { s with chips := s.chips.set k (.pio (c.setPort p { c.port p with pins := v })) }
  | some (.dart _) => .fault (.wrongKind k)
  | none => .fault (.noSuchChip k)

/-- The level now on the receive line of channel `c` (R11, R86). -/
def setRxd (k : Nat) (c : Side) (l : Level) (s : State) : Out :=
  match s.chips[k]? with
  | some (.dart d) => .next { s with chips := s.chips.set k (.dart (d.setCh c { d.ch c with rxd := l })) }
  | some (.pio _) => .fault (.wrongKind k)
  | none => .fault (.noSuchChip k)

/-- One environment event. -/
def perform (e : EnvEvent) (s : State) : Out :=
  match e with
  | .setPins k p v => setPins k p v s
  | .setRxd k c l => setRxd k c l s
  | .rxTimer k c => timerTick k (fun g => DartConfig.rxHz g c) (rxClock c) s
  | .txTimer k c => timerTick k (fun g => DartConfig.txHz g c) (txClock c) s

/-- A rejected operation stops the machine under the same name. -/
def rejection : Reject → Fault
  | .noSuchChip k => .noSuchChip k
  | .wrongKind k => .wrongKind k
  | .badBusWord => .badBusWord

/-- The port whose control register reads a bare table word is ready for it: in decode state NORMAL (log entry 15). -/
def Chip.readyForTableWord : Chip → Chip
  | .pio c => .pio { c with a := { c.a with cws := .normal } }
  | .dart d => .dart d

/-- The operation that carries a bare table word (log entry 15), and the chain ready for it. -/
def loadTableWord (s : State) (nbits w : Nat) : State :=
  if nbits = 16 then { s with inputs := .agent (.busWord 0 (bytesOf 2 w)) :: s.inputs }
  else
    { s with
      chips  := s.chips.modifyHead Chip.readyForTableWord
      inputs := .agent (.controlWrite 0 .a (BitVec.ofNat 8 w)) :: s.inputs }

end Sys2Proof.Machine
end

