-- ==== Sys2Proof/Machine/Step.lean ====
section
/-! DEFINITION. One step: the next input is taken, decoded in the present state (R130, R131) and performed whole (R90,
R94). With no input waiting nothing happens (R100). -/

namespace Sys2Proof.Machine

/-- The input just taken is no longer waiting. -/
def State.withInputs (s : State) (rest : List Input) : State := { s with inputs := rest }

/-- An operation of an agent: decode, then the instruction's meaning. -/
def runRequest (r : Request) (s : State) : Host.Outcome State Fault Refusal :=
  match decodeRequest s.views r with
  | .ok i => exec i s
  | .error e => .fault (rejection e)

/-- One step. -/
def step (s : State) : Host.Outcome State Fault Refusal :=
  match s.inputs with
  | [] => .next s
  | .agent r :: rest => runRequest r (s.withInputs rest)
  | .env e :: rest => perform e (s.withInputs rest)

/-- `s` with the table word as its next operation (log entries 1, 15). -/
def State.withFetchWord (s : State) (nbits w : Nat) : State := loadTableWord s nbits w

end Sys2Proof.Machine
end

