-- ==== Sys2Proof/Safety.lean ====
section
/-! DEFINITION. The terms that claims about the block use: what stays fixed, what a well-behaved state is, and short names
for "the state in which only this chip changed". Nothing here is used by the machine. -/

namespace Sys2Proof.Machine

/-! The next state of an operation on one chip, written out. -/

/-- Only the PIO at `k` became `c`; it drove `es`; the result is `ans`. Everything else of `s` stands. -/
def State.afterPio (s : State) (k : Nat) (c : PioChip) (es : List Signal) (ans : Answer) : State :=
  { s with chips := s.chips.set k (.pio c), trace := s.trace ++ es.map (Event.chip k), answer := ans }

/-- Only the DART at `k` became `d`; it drove `es`; the result is `ans`. Everything else of `s` stands. -/
def State.afterDart (s : State) (k : Nat) (d : DartChip) (es : List Signal) (ans : Answer) : State :=
  { s with chips := s.chips.set k (.dart d), trace := s.trace ++ es.map (Event.chip k), answer := ans }

/-- The same, with the result any value: one free byte is drawn (log entry 9). -/
def State.afterDartAny (s : State) (k : Nat) (d : DartChip) : State :=
  { s with
    chips := s.chips.set k (.dart d), answer := .byte (Config.freeByte s.draws), draws := s.draws + 1 }

/-- The chip at `k` is this PIO. -/
abbrev State.hasPio (s : State) (k : Nat) (c : PioChip) : Prop := s.chips[k]? = some (.pio c)

/-- The chip at `k` is this DART. -/
abbrev State.hasDart (s : State) (k : Nat) (d : DartChip) : Prop := s.chips[k]? = some (.dart d)

/-- Port `p` becomes what `f` makes of it. -/
def PioChip.withPort (c : PioChip) (p : Side) (f : Port → Port) : PioChip := c.setPort p (f (c.port p))

/-- Channel `s` becomes what `f` makes of it. -/
def DartChip.withCh (d : DartChip) (s : Side) (f : Channel → Channel) : DartChip := d.setCh s (f (d.ch s))

/-- Port `p` requests: its pending flag, then the re-evaluation (R191). -/
def PioChip.requested (c : PioChip) (p : Side) : PioChip :=
  (c.withPort p fun q => { q with src := { q.src with ip := true } }).checkInterrupt

/-- Port `p` after one poll (R200): in Bit-Control mode the pins are latched and the match re-evaluated, and a match that
rises requests. -/
def PioChip.polledPort (c : PioChip) (p : Side) : PioChip :=
  if (c.port p).mode = .bitctl then
    let q := c.port p
    let m := matchCondition q (q.pins ||| (q.outLatch &&& ~~~q.ior))
    let c' := c.withPort p fun r => { r with inLatch := r.pins, matched := m }
    if !q.matched && m then c'.requested p else c'
  else c

/-- Channel `s` requests with cause `k` (R329). -/
def DartChip.requested (d : DartChip) (s : Side) (k : BitVec 2) : DartChip :=
  (d.withCh s fun q => { q with cause := k, src := { q.src with ip := true } }).checkInterrupt

/-- Channel `s` after a control read: the pointer returns to 0 exactly if the parameter says so (R226). A pointer that is
0 already stays, with the rest of `wr0`. -/
def DartChip.afterControlRead (d : DartChip) (s : Side) (resets : Bool) : DartChip :=
  d.withCh s fun q => if resets && q.ptr != 0#3 then { q with wr0 := 0x00#8 } else q

/-- The request of an arriving character by the receive interrupt mode (R249), bits 4 to 3 of WR1 (R43). -/
def DartChip.arrival (d : DartChip) (s : Side) (k : BitVec 2) : DartChip :=
  let mode := (d.ch s).wr1.extractLsb' 3 2
  if mode = 0b00#2 then d
  else if mode = 0b01#2 then
    if (d.ch s).rxFirst then (d.withCh s fun q => { q with rxFirst := false }).requested s k else d
  else d.requested s k

/-- A change of a modem line whose latch and auto-enable are already done (R260): RR0 and, under bit 0 of WR1 (R43), the
external/status request. -/
def DartChip.lineChanged (d : DartChip) (s : Side) (bit : Byte) (level : Level) : DartChip :=
  if (d.ch s).rr0Latch then d
  else
    let e := d.withCh s fun q => { q with rr0 := if level then q.rr0 &&& ~~~bit else q.rr0 ||| bit }
    if (d.ch s).wr1.getLsbD 0 then (e.requested s 1#2).withCh s fun q => { q with rr0Latch := true } else e

/-! Characters on a line (R287), as a device sees them. -/

/-- The exclusive-or of the low `n` bits. -/
def dataParity (v : Byte) : Nat → Bool
  | 0 => false
  | n + 1 => xor (dataParity v n) (v.getLsbD n)

/-- The elements of one character, one level per bit-time: start, `n` data bits least significant first, the parity bit
if there is one, one or two stop bits. -/
def frameLevels (n : Nat) (parity even oneStop : Bool) (v : Byte) : List Level :=
  [false] ++ (List.range n).map v.getLsbD ++ (if parity then [if even then dataParity v n else !dataParity v n] else []) ++
    (if oneStop then [true] else [true, true])

/-- One receive bit-time per level, the line showing that level at it. -/
def receiveLevels (c : Side) (ls : List Level) (d : Act DartChip) : Act DartChip :=
  ls.foldl (fun x l => rxStep c (x.onCh c fun q => { q with rxd := l })) d

/-- `n` transmit bit-times. -/
def transmitSteps (c : Side) : Nat → Act DartChip → Act DartChip
  | 0, x => x
  | n + 1, x => transmitSteps c n (txStep c x)

/-- The levels channel `c` drove on its transmit line, in order. -/
def txdLevels (c : Side) (es : List Signal) : List Level :=
  es.filterMap fun
    | .txd c' l => if c' = c then some l else none
    | _ => none

/-! The configuration, which no step changes (R20, R385). -/

/-- The configuration of a chip, with its kind. -/
inductive ChipConfig where
  | pio (g : PioConfig)
  | dart (g : DartConfig)
deriving DecidableEq, Repr

/-- A DART whose rate, chosen by `rate`, is not 0: it has that timer (R286). -/
def ChipConfig.ticks (rate : DartConfig → Nat) : ChipConfig → Bool
  | .pio _ => false
  | .dart g => rate g != 0

/-- A chip's kind and parameters. -/
def Chip.config : Chip → ChipConfig
  | .pio c => .pio c.cfg
  | .dart d => .dart d.cfg

/-- CHAIN as configured: the kinds and parameters, in order. -/
def State.configuration (s : State) : List ChipConfig := s.chips.map Chip.config

/-! Interrupt sources of either kind of chip. -/

/-- The two sources of a chip, A then B (R320). -/
def Chip.sources : Chip → Source × Source
  | .pio c => (c.a.src, c.b.src)
  | .dart d => (d.a.src, d.b.src)

/-- `vector(chip, s)` (R326). -/
def Chip.vector (s : Side) : Chip → Byte
  | .pio c => (c.port s).vector
  | .dart d => d.vectorOf s

/-- The `IEO` flags of the whole chain, chip by chip, A then B. -/
def State.serviceFlags (s : State) : List (Bool × Bool) :=
  s.chips.map fun c => (c.sources.1.ieo, c.sources.2.ieo)

/-! Well-behaved states. -/

/-- A requesting source is an enabled one (R332 c). -/
def requestEnabled (en : Bool) (s : Source) : Bool := !s.int || en

/-- A PIO: port B is never Bidirectional (R26), and requests come from enabled ports only (R332 c). -/
def PioChip.wellBehaved (c : PioChip) : Bool :=
  c.b.mode != .bidir && requestEnabled c.a.enabled c.a.src && requestEnabled c.b.enabled c.b.src

/-- At most three characters are buffered, and RX_AVAIL is set exactly when there is one (R247). -/
def Channel.fifoOk (q : Channel) : Bool :=
  decide (q.fifo.n ≤ 3) && (hasBits q.rr0 rxAvail == decide (0 < q.fifo.n))

/-- The dividers stay below 64 (R282) and the bit counters count to at most 8, below 8 while data bits are still due
(R12, R292, R302). -/
def Channel.countersOk (q : Channel) : Bool :=
  decide (q.rxDiv < 64) && decide (q.txDiv < 64) && decide (q.rxBits ≤ 8) && decide (q.txBits ≤ 8) &&
    (q.rxState != .data || decide (q.rxBits < 8)) && (q.txState != .data || decide (q.txBits < 8))

/-- ALL_SENT means that no byte waits and no character is in flight (R240, R301, R306). -/
def Channel.transmitOk (q : Channel) : Bool :=
  !hasBits q.rr1 allSent || (hasBits q.rr0 txEmpty && q.txState == .start)

/-- The bits that no rule ever sets are 0: RR0 bits 7, 6, 1 and RR1 bits 7, 3, 2, 1 (R48, R49), and the error flags of
the character in flight stand in bits 4 to 6 only (R49). -/
def Channel.reservedOk (q : Channel) : Bool :=
  !hasBits q.rr0 0xC2#8 && !hasBits q.rr1 0x8E#8 && !hasBits q.rxErr 0x8F#8

/-- While RR0 is not latched its line bits show the line latches (R214, R260). -/
def Channel.linesOk (q : Channel) : Bool :=
  q.rr0Latch || (q.rr0 &&& 0x38#8) == lineBits q

/-- A DART channel. -/
def Channel.wellBehaved (q : Channel) : Bool :=
  q.fifoOk && q.countersOk && q.transmitOk && q.reservedOk && q.linesOk && requestEnabled q.enabled q.src

/-- A chip. -/
def Chip.wellBehaved : Chip → Bool
  | .pio c => c.wellBehaved
  | .dart d => d.a.wellBehaved && d.b.wellBehaved

/-- The invariant of the block: every chip is well behaved. -/
def State.wellBehaved (s : State) : Bool := s.chips.all Chip.wellBehaved

/-! Which instructions may touch service state (R332 b). -/

/-- The acknowledges, which put a source under service. -/
def acknowledges : Instr → Bool
  | .irqAck _ => true
  | .chainAck => true
  | _ => false

/-- The returns and resets, which take a source out of service. A bus write to a control register may be one of them. -/
def releases : Instr → Bool
  | .irqReti _ => true
  | .chainReti => true
  | .dartWr0ReturnFromInt _ _ _ _ => true
  | .dartWr0ChannelReset _ c _ _ => c == .a
  | .resetPio _ => true
  | .resetDart _ => true
  | .busWrite _ selC _ _ => selC
  | _ => false

/-! Safe runs. -/

/-- The next input does not stop the machine: an operation decodes, a change of a pin or line names a chip that has it, a
timer tick names a timer that the configuration has. -/
def State.nextFits (s : State) : Bool :=
  match s.inputs with
  | [] => true
  | .agent r :: _ => (decodeRequest s.views r).toOption.isSome
  | .env (.setPins k _ _) :: _ => (Operand.pioChip k).inChain s.views
  | .env (.setRxd k _ _) :: _ => (Operand.dartChip k).inChain s.views
  | .env (.rxTimer k c) :: _ => s.chips[k]?.any fun ch => ch.config.ticks fun g => DartConfig.rxHz g c
  | .env (.txTimer k c) :: _ => s.chips[k]?.any fun ch => ch.config.ticks fun g => DartConfig.txHz g c

/-- No protocol diagnostic was ever raised (R343, R344). -/
def State.noDiagnostic (s : State) : Bool :=
  s.trace.all fun
    | .chain _ => false
    | .chip _ (.diagnostic _) => false
    | _ => true

end Sys2Proof.Machine
end

