-- ==== Sys2Proof/Certificates/Slice0/Obligations.lean ====
section
/-! DEFINITION. The statements for the provers. A hypothesis only ever says what stands at a position of CHAIN and in which
state the addressed port or channel is. An equation `exec i s = .next (s.afterPio k c' es ans)` is the whole result AND
the frame: only the chip at `k` changes, to `c'`; it drives exactly `es`; the agent gets `ans`; every other chip, the
inputs still waiting, the configuration and the free-byte counter stand. The block has no memory (R80). -/

open Sys2Proof Sys2Proof.Machine

/-! Encoding, decoding, the step. -/

/-- A few words, written out bit by bit from R110, R111 and R42, decode to the rows they stand for. The bus word and the
codes of the mode and command fields are the spec's own choices (D3, D6, D7, D24). -/
def Obligations.DecodeSampleWords : Prop :=
  decodeBytes (.bus 0) [0b01000010#8, 0b00000110#8] = .ok (.busWrite 0 true false 0x42#8) ∧
  decodeBytes (.bus 1) [0b00000011#8] = .ok (.busRead 1 true true) ∧
  decodeBytes (.pioControl 0 .a .normal) [0b11100100#8] = .ok (.pioVectorWord 0 .a 0b1110010#7) ∧
  decodeBytes (.pioControl 0 .b .normal) [0b11001111#8] = .ok (.pioModeBitctl 0 .b 0b00#2) ∧
  decodeBytes (.pioControl 0 .b .setDir) [0b11001111#8] = .ok (.pioDirectionByte 0 .b 0xCF#8) ∧
  decodeBytes (.pioControl 0 .a .normal) [0b10110111#8] = .ok (.pioIntControlWord 0 .a true false true true) ∧
  decodeBytes (.pioData 0 .a .bitctl) [0b10100101#8] = .ok (.pioDataWriteBitctl 0 .a 0xA5#8) ∧
  decodeBytes (.dartControl 1 .a 0#3) [0b00011000#8] = .ok (.dartWr0ChannelReset 1 .a 0#2 0#3) ∧
  decodeBytes (.dartControl 1 .a 1#3) [0b00011000#8] = .ok (.dartWr1 1 .a 0x18#8) ∧
  decodeBytes (.dartControl 1 .b 7#3) [0b01010101#8] = .ok (.dartWr6Wr7Discard 1 .b 0x55#8)

/-- Decode and encode agree: the operation an instruction is issued as decodes, in every chain whose state selects the
instruction's row (R130, R131, the table's "when"), to that instruction with every operand. The codes are those of the
spec's own choices D3, D5 to D7, D24. -/
def Obligations.RequestRoundTrip : Prop :=
  ∀ (vs : List ChipView) (i : Instr), i.selectedIn vs = true → decodeRequest vs (requestOf i) = .ok i

/-- The other direction: whatever bytes decode at a slot, encoding the instruction gives back those bytes; and every
single byte decodes at every byte-wide slot (R125). -/
def Obligations.DecodedBytesEncodeBack : Prop :=
  (∀ (sl : Slot) (bs : List Byte) (i : Instr), decodeBytes sl bs = .ok i → encode i = bs) ∧
  (∀ (sl : Slot) (b : Byte), (∀ k, sl ≠ .bus k) → ∃ i, decodeBytes sl [b] = .ok i)

/-- Offset accesses: with CD_BA offsets 0 to 3 are data A, data B, control A, control B, with BA_CD data A, control A,
data B, control B, and a step with such an access performs the bus row of that choice. The bit values are the spec's
own choice D3. -/
def Obligations.OffsetAccessFollowsAddrOrder : Prop :=
  ∀ (s : State) (k : Nat) (c : Chip) (off : BitVec 2) (v : Byte) (rest : List Input), s.chips[k]? = some c →
    let bd := off.getLsbD 0
    let cd := off.getLsbD 1
    (c.view.order = .cdBa →
      (s.inputs = .agent (.write k off v) :: rest → step s = exec (.busWrite k cd bd v) (s.withInputs rest)) ∧
      (s.inputs = .agent (.read k off) :: rest → step s = exec (.busRead k cd bd) (s.withInputs rest))) ∧
    (c.view.order = .baCd →
      (s.inputs = .agent (.write k off v) :: rest → step s = exec (.busWrite k bd cd v) (s.withInputs rest)) ∧
      (s.inputs = .agent (.read k off) :: rest → step s = exec (.busRead k bd cd) (s.withInputs rest)))

/-- A step runs the decoded instruction: the next operation is taken off the inputs, decoded in the present state, and
performed whole; nothing else happens. With no input waiting nothing happens. Model's choice: the inputs stand in State
(log entry 1). -/
def Obligations.StepRunsDecodedInstruction : Prop :=
  (∀ (s : State) (r : Request) (rest : List Input) (i : Instr),
    s.inputs = .agent r :: rest → decodeRequest s.views r = .ok i → step s = exec i { s with inputs := rest }) ∧
  (∀ (s : State) (rest : List Input) (i : Instr),
    i.selectedIn s.views = true → s.inputs = .agent (requestOf i) :: rest → step s = exec i { s with inputs := rest }) ∧
  (∀ s : State, s.inputs = [] → step s = .next s)

/-- A bare table word of 8 or 16 bits, placed as the next operation, is decoded and run by the very next step. Model's
choice of the context of a bare word: log entry 15. -/
def Obligations.TableWordRunsNext : Prop :=
  ∀ (nbits w : Nat) (i : Instr), nbits = 8 ∨ nbits = 16 → decodeTableWord nbits w = some i →
    step (State.reset.withFetchWord nbits w) = exec i State.reset

/-- A bus access (R83, R84) with these select bits is the control or data operation of A or B on that chip: it completes,
with the same result and effects as the row the chip's state selects. -/
def Obligations.BusAccessPerformsSelectedRow : Prop :=
  ∀ (s : State) (k : Nat) (selC selB : Bool) (v : Byte), k < s.chips.length →
    let x : Side := if selB then .b else .a
    (∃ i t, decodeRequest s.views (if selC then .controlWrite k x v else .dataWrite k x v) = .ok i ∧
      exec (.busWrite k selC selB v) s = .next t ∧ exec i s = .next t) ∧
    (∃ i t, decodeRequest s.views (if selC then .controlRead k x else .dataRead k x) = .ok i ∧
      exec (.busRead k selC selB) s = .next t ∧ exec i s = .next t)

/-- An instruction performed in a state that does not select its row does what the same access does in that state.
Model's choice: log entry 12. -/
def Obligations.UnselectedFormActsAsItsAccess : Prop :=
  ∀ (s : State) (i j : Instr), i.wellFormed s.views = true → decodeRequest s.views (requestOf i) = .ok j →
    exec i s = exec j s

/-- R340: every operation with every argument value is accepted and completes. -/
def Obligations.EveryOperationCompletes : Prop :=
  ∀ (s : State) (i : Instr), i.wellFormed s.views = true → ∃ t, exec i s = .next t

/-- An operation stops, by the position it names, if that position is outside CHAIN (`noSuchChip`) or holds a chip of the
other kind (`wrongKind`); these are all the operations whose operand is not in the chain, since the chain operations name no
position. Model's choice: log entry 14. -/
def Obligations.MisaddressedOperationStops : Prop :=
  ∀ (s : State) (i : Instr), i.operand.inChain s.views = false →
    ∃ k, i.operand.position = some k ∧
      (s.chips.length ≤ k → exec i s = .fault (.noSuchChip k)) ∧
      (k < s.chips.length → exec i s = .fault (.wrongKind k))

/-- The environment's inputs: a pin or receive line takes a new level and nothing else changes (R11; log entry 8), and a
tick of a fixed-rate timer is one clock pulse of that side (R286, D35; log entry 22). -/
def Obligations.EnvironmentInputs : Prop :=
  (∀ (s : State) (k : Nat) (c : PioChip) (p : Side) (v : Byte) (rest : List Input), s.hasPio k c →
    s.inputs = .env (.setPins k p v) :: rest →
    step s = .next { s with
      inputs := rest, chips := s.chips.set k (.pio (c.withPort p fun q => { q with pins := v })) }) ∧
  (∀ (s : State) (k : Nat) (d : DartChip) (c : Side) (l : Level) (rest : List Input), s.hasDart k d →
    s.inputs = .env (.setRxd k c l) :: rest →
    step s = .next { s with
      inputs := rest, chips := s.chips.set k (.dart (d.withCh c fun q => { q with rxd := l })) }) ∧
  (∀ (s : State) (k : Nat) (d : DartChip) (c : Side) (rest : List Input), s.hasDart k d →
    (s.inputs = .env (.rxTimer k c) :: rest → DartConfig.rxHz d.cfg c ≠ 0 →
      step s = .next ({ s with inputs := rest }.commit k ((rxClock c (Act.begin d)).lift .dart))) ∧
    (s.inputs = .env (.txTimer k c) :: rest → DartConfig.txHz d.cfg c ≠ 0 →
      step s = .next ({ s with inputs := rest }.commit k ((txClock c (Act.begin d)).lift .dart))))

/-! PIO control register. -/

/-- R152: the vector word loads the vector, bit 0 forced 0, and does nothing else. -/
def Obligations.VectorWordLoadsVector : Prop :=
  ∀ (s : State) (k : Nat) (c : PioChip) (p : Side) (v : BitVec 7), s.hasPio k c → (c.port p).cws = .normal →
    exec (.pioVectorWord k p v) s =
      .next (s.afterPio k (c.withPort p fun q => { q with vector := v ++ 0#1 }) [] .none)

/-- The four mode words: Output pulses ready, Bit-Control waits for the direction byte, port B ignores Bidirectional.
The codes and the absence of other side effects are the spec's own choices D6, D8, D9. -/
def Obligations.ModeWordsSelectMode : Prop :=
  ∀ (s : State) (k : Nat) (c : PioChip) (p : Side) (x : BitVec 2), s.hasPio k c → (c.port p).cws = .normal →
    exec (.pioModeOutput k p x) s =
      .next (s.afterPio k (c.withPort p fun q => { q with mode := .output, rdy := true })
        [.ready p false, .ready p true] .none) ∧
    exec (.pioModeInput k p x) s =
      .next (s.afterPio k (c.withPort p fun q => { q with mode := .input }) [] .none) ∧
    exec (.pioModeBidir k p x) s =
      .next (s.afterPio k (if p = .a then c.withPort .a fun q => { q with mode := .bidir } else c) [] .none) ∧
    exec (.pioModeBitctl k p x) s =
      .next (s.afterPio k (c.withPort p fun q => { q with mode := .bitctl, cws := .setDir }) [] .none)

/-- The interrupt control word: with a mask to follow it withdraws the port's request (not its service) and waits for the
mask byte, else it sets the enable and re-evaluates. Field positions and "clear pending" are the spec's own choices D7,
D10. -/
def Obligations.IntControlWordStoresAndReevaluates : Prop :=
  ∀ (s : State) (k : Nat) (c : PioChip) (p : Side) (ei ao hl : Bool), s.hasPio k c → (c.port p).cws = .normal →
    exec (.pioIntControlWord k p ei ao hl true) s =
      .next (s.afterPio k
        (c.withPort p fun q =>
          { q with
            icw := BitVec.ofBool ei ++ BitVec.ofBool ao ++ BitVec.ofBool hl ++ 0b10111#5, cws := .setMask,
            src := { ip := false, int := false, ieo := q.src.ieo } })
        [] .none) ∧
    exec (.pioIntControlWord k p ei ao hl false) s =
      .next (s.afterPio k
        (c.withPort p fun q =>
          { q with
            icw := BitVec.ofBool ei ++ BitVec.ofBool ao ++ BitVec.ofBool hl ++ 0b00111#5, ie := ei }).checkInterrupt
        [] .none)

/-- The reserved control words change nothing. The spec's own choice D5 (log entry 20). -/
def Obligations.ReservedWordsChangeNothing : Prop :=
  ∀ (s : State) (k : Nat) (c : PioChip) (p : Side) (x : BitVec 4), s.hasPio k c → (c.port p).cws = .normal →
    exec (.pioReserved1 k p x) s = .next { s with answer := .none } ∧
    exec (.pioReserved3 k p x) s = .next { s with answer := .none } ∧
    exec (.pioReserved5 k p x) s = .next { s with answer := .none } ∧
    exec (.pioReserved9 k p x) s = .next { s with answer := .none } ∧
    exec (.pioReservedB k p x) s = .next { s with answer := .none } ∧
    exec (.pioReservedD k p x) s = .next { s with answer := .none }

/-- R160, R161: the direction byte and the mask byte, whatever the byte, and the return to NORMAL. -/
def Obligations.DirectionAndMaskBytes : Prop :=
  ∀ (s : State) (k : Nat) (c : PioChip) (p : Side) (v : Byte), s.hasPio k c →
    ((c.port p).cws = .setDir →
      exec (.pioDirectionByte k p v) s =
        .next (s.afterPio k (c.withPort p fun q => { q with ior := v, matched := false, cws := .normal }) [] .none)) ∧
    ((c.port p).cws = .setMask →
      exec (.pioMaskByte k p v) s =
        .next (s.afterPio k
          (c.withPort p fun q =>
            { q with mask := v, matched := false, ie := q.icw.getLsbD 7, cws := .normal }).checkInterrupt
          [] .none))

/-- The next-state function (R151) of `cws`, for every byte written to the control register of port `p`, for every other
operation on the chip, and for reset; the other port's `cws` never moves. Which bytes are which words rests on the spec's
own choices D5, D6, D7, and reset to NORMAL on D18. -/
def Obligations.DecodeStateSequence : Prop :=
  ∀ (s t : State) (k : Nat) (c c' : PioChip), s.hasPio k c → t.hasPio k c' →
    (∀ (p : Side) (v : Byte), exec (.busWrite k true p.toBit v) s = .next t →
      (c'.port p).cws =
        (if (c.port p).cws ≠ .normal then .normal
         else if v &&& 0xCF#8 = 0xCF#8 then .setDir
         else if v &&& 0x1F#8 = 0x17#8 then .setMask
         else .normal) ∧
      (∀ p', p' ≠ p → (c'.port p').cws = (c.port p').cws)) ∧
    (∀ (r : Request) (i : Instr), (∀ p v, r ≠ .controlWrite k p v) → r ≠ .reset k → (∀ bs, r ≠ .busWord k bs) →
      (∀ off v, r ≠ .write k off v) → decodeRequest s.views r = .ok i → exec i s = .next t →
      c'.a.cws = c.a.cws ∧ c'.b.cws = c.b.cws) ∧
    (exec (.resetPio k) s = .next t → c'.a.cws = .normal ∧ c'.b.cws = .normal)

/-- A control read of a PIO is the data read of the port's mode, with its ready pulses; it needs no decode state and moves
none. The spec's own choice D45. -/
def Obligations.PioControlReadIsDataRead : Prop :=
  ∀ (s : State) (k : Nat) (c : PioChip) (p : Side), s.hasPio k c →
    ((c.port p).mode = .output → exec (.pioControlRead k p) s =
      .next (s.afterPio k c [] (.byte (c.port p).outLatch))) ∧
    ((c.port p).mode = .input → exec (.pioControlRead k p) s =
      .next (s.afterPio k (c.withPort p fun q => { q with rdy := true }) [.ready p false, .ready p true]
        (.byte (c.port p).inLatch))) ∧
    ((c.port p).mode = .bidir → exec (.pioControlRead k p) s =
      .next (s.afterPio k (c.withPort .b fun q => { q with rdy := true }) [.ready .b false, .ready .b true]
        (.byte (c.a.inLatch ||| (c.a.outLatch &&& ~~~c.a.ior))))) ∧
    ((c.port p).mode = .bitctl → exec (.pioControlRead k p) s =
      .next (s.afterPio k c [] (.byte ((c.port p).inLatch ||| ((c.port p).outLatch &&& ~~~(c.port p).ior)))))

/-! PIO data register. -/

/-- R171, R176: in Output mode a write drops ready, latches, drives the pins, raises ready; a read returns the latch. -/
def Obligations.OutputModeDataPath : Prop :=
  ∀ (s : State) (k : Nat) (c : PioChip) (p : Side) (v : Byte), s.hasPio k c → (c.port p).mode = .output →
    exec (.pioDataWriteOut k p v) s =
      .next (s.afterPio k (c.withPort p fun q => { q with outLatch := v, rdy := true })
        [.ready p false, .portWrite p v, .ready p true] .none) ∧
    exec (.pioDataReadOut k p) s = .next (s.afterPio k c [] (.byte (c.port p).outLatch))

/-- R172, R177: in Input mode a write does nothing; a read returns the input latch and pulses ready. -/
def Obligations.InputModeDataPath : Prop :=
  ∀ (s : State) (k : Nat) (c : PioChip) (p : Side) (v : Byte), s.hasPio k c → (c.port p).mode = .input →
    exec (.pioDataWriteIn k p v) s = .next { s with answer := .none } ∧
    exec (.pioDataReadIn k p) s =
      .next (s.afterPio k (c.withPort p fun q => { q with rdy := true }) [.ready p false, .ready p true]
        (.byte (c.port p).inLatch))

/-- Port A in Bidirectional mode: a write drives the pins now only while the strobe is low (the spec's own choice D12); a
read mixes the latches by the direction mask and pulses port B's ready. -/
def Obligations.BidirectionalDataPath : Prop :=
  ∀ (s : State) (k : Nat) (c : PioChip) (v : Byte), s.hasPio k c → c.a.mode = .bidir →
    exec (.pioDataWriteBidir k .a v) s =
      .next (s.afterPio k { c with a := { c.a with outLatch := v, rdy := true } }
        ([.ready .a false] ++ (if c.a.stb = false then [.portWrite .a v] else []) ++ [.ready .a true]) .none) ∧
    exec (.pioDataReadBidir k .a) s =
      .next (s.afterPio k { c with b := { c.b with rdy := true } } [.ready .b false, .ready .b true]
        (.byte (c.a.inLatch ||| (c.a.outLatch &&& ~~~c.a.ior))))

/-- R174, R179: in Bit-Control mode a write latches all 8 bits and drives those not designated inputs; a read mixes the
latches without touching ready. -/
def Obligations.BitControlDataPath : Prop :=
  ∀ (s : State) (k : Nat) (c : PioChip) (p : Side) (v : Byte), s.hasPio k c → (c.port p).mode = .bitctl →
    exec (.pioDataWriteBitctl k p v) s =
      .next (s.afterPio k (c.withPort p fun q => { q with outLatch := v })
        [.portWrite p (v &&& ~~~(c.port p).ior)] .none) ∧
    exec (.pioDataReadBitctl k p) s =
      .next (s.afterPio k c [] (.byte ((c.port p).inLatch ||| ((c.port p).outLatch &&& ~~~(c.port p).ior))))

/-! PIO strobe and poll. -/

/-- Strobe in Output mode: the end of a pulse requests an interrupt and drops ready; any other call only stores the
level. The edge is the spec's own reading D12; port B is served by its own mode only while port A is not Bidirectional
(D16). -/
def Obligations.StrobeOutputMode : Prop :=
  ∀ (s : State) (k : Nat) (c : PioChip) (p : Side) (l : Level), s.hasPio k c → (c.port p).mode = .output →
    (p = .b → c.a.mode ≠ .bidir) →
    exec (.pioStrobeOut k p l) s =
      .next (if (c.port p).stb = false ∧ l = true then
          s.afterPio k ((c.requested p).withPort p fun q => { q with rdy := false, stb := true }) [.ready p false] .none
        else s.afterPio k (c.withPort p fun q => { q with stb := l }) [] .none)

/-- Strobe in Input mode: every call with level 0 loads the latch from the pins; the end of a pulse requests and drops
ready (the spec's own choices D12, D13, D15). -/
def Obligations.StrobeInputMode : Prop :=
  ∀ (s : State) (k : Nat) (c : PioChip) (p : Side), s.hasPio k c → (c.port p).mode = .input →
    (p = .b → c.a.mode ≠ .bidir) →
    exec (.pioStrobeIn k p false) s =
      .next (s.afterPio k (c.withPort p fun q => { q with inLatch := q.pins, stb := false }) [] .none) ∧
    exec (.pioStrobeIn k p true) s =
      .next (if (c.port p).stb = false then
          s.afterPio k ((c.requested p).withPort p fun q => { q with rdy := false, stb := true }) [.ready p false] .none
        else s.afterPio k c [] .none)

/-- Strobes while port A is Bidirectional, and in Bit-Control mode: port A's strobe at level 0 drives the output latch;
port B's at level 0 loads port A's input latch, and its rising edge requests on port B only while port A's strobe is
released; Bit-Control ignores strobes; the level is stored in each case (the spec's own choices D14, D15, D16). -/
def Obligations.StrobeBidirectionalAndBitControl : Prop :=
  (∀ (s : State) (k : Nat) (c : PioChip) (l : Level), s.hasPio k c → c.a.mode = .bidir →
    exec (.pioStrobeBidirA k l) s =
      .next (s.afterPio k { c with a := { c.a with stb := l } }
        (if l = false then [.portWrite .a c.a.outLatch] else []) .none) ∧
    exec (.pioStrobeBWhileABidir k l) s =
      .next (if l = false then
          s.afterPio k { c with a := { c.a with inLatch := c.a.pins }, b := { c.b with stb := false } } [] .none
        else if c.b.stb = false ∧ c.a.stb = true then
          s.afterPio k ((c.requested .b).withPort .b fun q => { q with rdy := false, stb := true }) [.ready .b false]
            .none
        else s.afterPio k { c with b := { c.b with stb := true } } [] .none)) ∧
  (∀ (s : State) (k : Nat) (c : PioChip) (p : Side) (l : Level), s.hasPio k c → (c.port p).mode = .bitctl →
    (p = .b → c.a.mode ≠ .bidir) →
    exec (.pioStrobeBitctl k p l) s = .next (s.afterPio k (c.withPort p fun q => { q with stb := l }) [] .none))

/-- One poll tick: port A, then port B; a port outside Bit-Control is not touched (the spec's own choices D11, D17). -/
def Obligations.PollTickEvaluatesBothPorts : Prop :=
  ∀ (s : State) (k : Nat) (c : PioChip), s.hasPio k c →
    exec (.pioPollTick k) s = .next (s.afterPio k ((c.polledPort .a).polledPort .b) [] .none)

/-- The match condition line by line: with AND every monitored line (mask bit 0) is at the selected level, with OR at
least one is (the spec's own reading, D7, D11). -/
def Obligations.MatchConditionByLines : Prop :=
  ∀ (q : Port) (d : Byte),
    (q.icw.getLsbD 6 = true →
      (matchCondition q d = true ↔ ∀ n < 8, q.mask.getLsbD n = false → d.getLsbD n = q.icw.getLsbD 5)) ∧
    (q.icw.getLsbD 6 = false →
      (matchCondition q d = true ↔ ∃ n < 8, q.mask.getLsbD n = false ∧ d.getLsbD n = q.icw.getLsbD 5))

/-- A request is made exactly once on a rising match: a second poll that finds the same pins changes nothing (the spec's
own reading D11). -/
def Obligations.RepeatedPollChangesNothing : Prop :=
  ∀ (s t u : State) (k : Nat), exec (.pioPollTick k) s = .next t → exec (.pioPollTick k) t = .next u → u = t

/-! DART control register. -/

/-- Plain bytes: the WR0 commands without a side effect only store the byte (its low three bits are the next pointer); a
byte at pointer 6 or 7 is discarded and the pointer returns to 0 (the spec's own choices D24, D25). -/
def Obligations.PlainPointerBytes : Prop :=
  ∀ (s : State) (k : Nat) (d : DartChip) (c : Side) (x : BitVec 2) (n : BitVec 3) (v : Byte), s.hasDart k d →
    ((d.ch c).ptr = 0#3 →
      exec (.dartWr0Null k c x n) s =
        .next (s.afterDart k (d.withCh c fun q => { q with wr0 := x ++ 0b000#3 ++ n }) [] .none) ∧
      exec (.dartWr0Cmd1 k c x n) s =
        .next (s.afterDart k (d.withCh c fun q => { q with wr0 := x ++ 0b001#3 ++ n }) [] .none) ∧
      exec (.dartWr0Cmd5 k c x n) s =
        .next (s.afterDart k (d.withCh c fun q => { q with wr0 := x ++ 0b101#3 ++ n }) [] .none)) ∧
    ((d.ch c).ptr = 6#3 ∨ (d.ch c).ptr = 7#3 →
      exec (.dartWr6Wr7Discard k c v) s =
        .next (s.afterDart k (d.withCh c fun q => { q with wr0 := 0x00#8 }) [] .none))

/-- Reset-external-status: RR0's line bits are cleared with BREAK and re-derived from the latches, RR0 is un-latched; the
other bits of RR0 and every request stand. The command code is the spec's own choice D24. -/
def Obligations.ResetExternalStatus : Prop :=
  ∀ (s : State) (k : Nat) (d : DartChip) (c : Side) (x : BitVec 2) (n : BitVec 3), s.hasDart k d →
    (d.ch c).ptr = 0#3 →
    exec (.dartWr0ResetExtStatus k c x n) s =
      .next (s.afterDart k
        (d.withCh c fun q =>
          { q with
            wr0 := x ++ 0b010#3 ++ n, rr0Latch := false,
            rr0 := (q.rr0 &&& 0x47#8) ||| (if q.dcd then 0x00#8 else 0x08#8) ||| (if q.ri then 0x00#8 else 0x10#8)
              ||| (if q.cts then 0x00#8 else 0x20#8) })
        [] .none)

/-- Channel-reset: receiver and transmitter off, both framing states to Start, RTS and DTR released; on channel A also
every request and service of both channels. Nothing else changes (the spec's own reading D34). -/
def Obligations.ChannelResetCommand : Prop :=
  ∀ (s : State) (k : Nat) (d : DartChip) (c : Side) (x : BitVec 2) (n : BitVec 3), s.hasDart k d →
    (d.ch c).ptr = 0#3 →
    let e := d.withCh c fun q =>
      { q with
        wr0 := x ++ 0b011#3 ++ n, wr3 := q.wr3 &&& 0xFE#8, wr5 := q.wr5 &&& 0xF7#8, rxState := .start,
        txState := .start, rts := true, dtr := true }
    exec (.dartWr0ChannelReset k c x n) s =
      .next (s.afterDart k
        (if c = .a then (e.withCh .a fun q => { q with src := Source.idle }).withCh .b fun q =>
            { q with src := Source.idle }
         else e)
        [.rts c true, .dtr c true] .none)

/-- Enable-interrupt-on-next-receive-character sets the first-character flag; Error-reset clears the three error bits of
RR1 and keeps ALL_SENT. The command codes are the spec's own choice D24. -/
def Obligations.FirstCharacterAndErrorReset : Prop :=
  ∀ (s : State) (k : Nat) (d : DartChip) (c : Side) (x : BitVec 2) (n : BitVec 3), s.hasDart k d →
    (d.ch c).ptr = 0#3 →
    exec (.dartWr0EnableIntNextRx k c x n) s =
      .next (s.afterDart k (d.withCh c fun q => { q with wr0 := x ++ 0b100#3 ++ n, rxFirst := true }) [] .none) ∧
    exec (.dartWr0ErrorReset k c x n) s =
      .next (s.afterDart k (d.withCh c fun q => { q with wr0 := x ++ 0b110#3 ++ n, rr1 := q.rr1 &&& 0x8F#8 }) [] .none)

/-- The Return-from-interrupt command releases the first channel under service, whichever channel it was written to; with
none it only raises the diagnostic (the spec's own reading D34). -/
def Obligations.ReturnFromInterruptCommand : Prop :=
  ∀ (s : State) (k : Nat) (d : DartChip) (c : Side) (x : BitVec 2) (n : BitVec 3), s.hasDart k d →
    (d.ch c).ptr = 0#3 →
    let e := d.withCh c fun q => { q with wr0 := x ++ 0b111#3 ++ n }
    exec (.dartWr0ReturnFromInt k c x n) s =
      .next (
        if d.a.src.ieo then
          s.afterDart k (e.withCh .a fun q => { q with src := { q.src with ieo := false } }).checkInterrupt [] .none
        else if d.b.src.ieo then
          s.afterDart k (e.withCh .b fun q => { q with src := { q.src with ieo := false } }).checkInterrupt [] .none
        else s.afterDart k e [.diagnostic .retiWithoutService] .none)

/-- Writes to WR1 to WR4: the byte is stored verbatim; WR1 re-evaluates the interrupts; the pointer returns to register 0
(the spec's reading D25). -/
def Obligations.WriteRegisters1To4 : Prop :=
  ∀ (s : State) (k : Nat) (d : DartChip) (c : Side) (v : Byte), s.hasDart k d →
    ((d.ch c).ptr = 1#3 → exec (.dartWr1 k c v) s =
      .next (s.afterDart k (d.withCh c fun q => { q with wr0 := 0x00#8, wr1 := v }).checkInterrupt [] .none)) ∧
    ((d.ch c).ptr = 2#3 → exec (.dartWr2 k c v) s =
      .next (s.afterDart k (d.withCh c fun q => { q with wr0 := 0x00#8, wr2 := v }) [] .none)) ∧
    ((d.ch c).ptr = 3#3 → exec (.dartWr3 k c v) s =
      .next (s.afterDart k (d.withCh c fun q => { q with wr0 := 0x00#8, wr3 := v }) [] .none)) ∧
    ((d.ch c).ptr = 4#3 → exec (.dartWr4 k c v) s =
      .next (s.afterDart k (d.withCh c fun q => { q with wr0 := 0x00#8, wr4 := v }) [] .none))

/-- A write to WR5: RTS is asserted at once, released at once only if all is sent, else left to the transmitter; DTR
follows its bit both ways; the pointer returns to 0 (the spec's own choices D25, D33). -/
def Obligations.WriteRegister5DrivesLines : Prop :=
  ∀ (s : State) (k : Nat) (d : DartChip) (c : Side) (v : Byte), s.hasDart k d → (d.ch c).ptr = 5#3 →
    exec (.dartWr5 k c v) s =
      .next (s.afterDart k
        (d.withCh c fun q =>
          { q with
            wr0 := 0x00#8, wr5 := v, dtr := !v.getLsbD 7,
            rts := if v.getLsbD 1 then false else if q.rr1.getLsbD 0 then true else q.rts })
        ((if v.getLsbD 1 then [.rts c false] else if (d.ch c).rr1.getLsbD 0 then [.rts c true] else []) ++
          [.dtr c (!v.getLsbD 7)])
        .none)

/-- The register pointer: a write at pointer 0 sets it from the byte, a write at any other pointer returns it to 0; the
other channel's pointer never moves (the spec's reading D25). -/
def Obligations.PointerAfterControlWrite : Prop :=
  ∀ (s t : State) (k : Nat) (d d' : DartChip) (c : Side) (v : Byte), s.hasDart k d → t.hasDart k d' →
    exec (.busWrite k true c.toBit v) s = .next t →
    (d'.ch c).ptr = (if (d.ch c).ptr = 0#3 then v.extractLsb' 0 3 else 0#3) ∧
    (∀ c', c' ≠ c → (d'.ch c').ptr = (d.ch c').ptr)

/-- Control reads of a DART: RR0 with INT_PEND computed on channel A only (D28), RR1 as stored, and any value where no
register is selected (D26; the byte is free, log entry 9); the pointer by the parameter (D26). -/
def Obligations.StatusRegisterReads : Prop :=
  ∀ (s : State) (k : Nat) (d : DartChip) (c : Side), s.hasDart k d →
    ((d.ch c).ptr = 0#3 → exec (.dartReadRr0 k c) s =
      .next (s.afterDart k d []
        (.byte (((d.ch c).rr0 &&& 0xBD#8) |||
          (if c = .a ∧ (d.a.src.int = true ∨ d.b.src.int = true) then 0x02#8 else 0x00#8))))) ∧
    ((d.ch c).ptr = 1#3 → exec (.dartReadRr1 k c) s =
      .next (s.afterDart k (d.afterControlRead c s.readResetsPtr) [] (.byte (d.ch c).rr1))) ∧
    ((3 ≤ (d.ch c).ptr.toNat ∨ ((d.ch c).ptr = 2#3 ∧ c = .a)) → exec (.dartReadReserved k c) s =
      .next (s.afterDartAny k (d.afterControlRead c s.readResetsPtr)))

/-- The DART's vector (R330) and RR2 (R331) bit by bit: channel B's WR2, and under "status affects vector" bits 3 to 1 are
the channel and the cause. With nothing going on RR2 shows 0b011. Positions and codes are the spec's own choice D27. -/
def Obligations.VectorAndRegister2 : Prop :=
  (∀ (d : DartChip) (x : Side),
    (d.b.wr1.getLsbD 2 = false → d.vectorOf x = d.b.wr2) ∧
    (d.b.wr1.getLsbD 2 = true →
      d.vectorOf x = d.b.wr2.extractLsb' 4 4 ++ BitVec.ofBool (x == .a) ++ (d.ch x).cause ++ d.b.wr2.extractLsb' 0 1)) ∧
  (∀ (s : State) (k : Nat) (d : DartChip), s.hasDart k d → d.b.ptr = 2#3 →
    exec (.dartReadRr2 k) s =
      .next (s.afterDart k (d.afterControlRead .b s.readResetsPtr) []
        (.byte (
          if d.b.wr1.getLsbD 2 = false then d.b.wr2
          else if d.a.src ≠ Source.idle then d.vectorOf .a
          else if d.b.src ≠ Source.idle then d.vectorOf .b
          else d.b.wr2.extractLsb' 4 4 ++ 0b011#3 ++ d.b.wr2.extractLsb' 0 1))))

/-! DART data register, receive FIFO, modem lines. -/

/-- A data write latches the byte and clears TX_EMPTY and ALL_SENT; nothing else (D39). -/
def Obligations.DataWriteLatchesByte : Prop :=
  ∀ (s : State) (k : Nat) (d : DartChip) (c : Side) (v : Byte), s.hasDart k d →
    exec (.dartDataWrite k c v) s =
      .next (s.afterDart k
        (d.withCh c fun q => { q with txData := v, rr0 := q.rr0 &&& 0xFB#8, rr1 := q.rr1 &&& 0xFE#8 }) [] .none)

/-- A data read pops the oldest character and merges its flags into RR1: framing replaces, parity and overrun accumulate;
RX_AVAIL goes with the last character. With the FIFO empty any value and no state change (D30; the byte is free, log
entry 9). -/
def Obligations.DataReadPopsFifo : Prop :=
  ∀ (s : State) (k : Nat) (d : DartChip) (c : Side), s.hasDart k d →
    ((d.ch c).fifo.n = 0 → exec (.dartDataRead k c) s = .next (s.afterDartAny k d)) ∧
    ((d.ch c).fifo.n ≠ 0 → exec (.dartDataRead k c) s =
      .next (s.afterDart k
        (d.withCh c fun q =>
          { q with
            rr1 := (q.rr1 &&& 0xBF#8) ||| (q.fifo.err.x0 &&& 0x70#8),
            rr0 := if q.fifo.n = 1 then q.rr0 &&& 0xFE#8 else q.rr0,
            fifo :=
              { n := q.fifo.n - 1, data := ⟨q.fifo.data.x1, q.fifo.data.x2, q.fifo.data.x2⟩,
                err := ⟨q.fifo.err.x1, q.fifo.err.x2, q.fifo.err.x2⟩ } })
        [] (.byte (d.ch c).fifo.data.x0)))

/-- A character enters the FIFO with its error flags and is reported: as special (cause 3) with a framing error, or with a
parity error in receive interrupt mode 0b10 (bits 4 to 3 of WR1), else as received (cause 2). On overflow it is lost,
OVERRUN goes on the newest character and into RR1, and it is reported as special. The receiver delivers a character with any
flags (`rxPush`, R248), `receive_data` injects one with none. The spec's own choices D23, D29, D31. -/
def Obligations.ReceiveDataFillsFifo : Prop :=
  let stored := fun (v err : Byte) (q : Channel) =>
    { q with
      rr0 := q.rr0 ||| 0x01#8,
      fifo :=
        { n := q.fifo.n + 1,
          data :=
            { x0 := if q.fifo.n = 0 then v else q.fifo.data.x0, x1 := if q.fifo.n = 1 then v else q.fifo.data.x1,
              x2 := if q.fifo.n = 2 then v else q.fifo.data.x2 },
          err :=
            { x0 := if q.fifo.n = 0 then err else q.fifo.err.x0, x1 := if q.fifo.n = 1 then err else q.fifo.err.x1,
              x2 := if q.fifo.n = 2 then err else q.fifo.err.x2 } } }
  let lost := fun q : Channel =>
    { q with
      rr0 := q.rr0 ||| 0x01#8, rr1 := q.rr1 ||| 0x20#8,
      fifo := { q.fifo with err := { q.fifo.err with x2 := q.fifo.err.x2 ||| 0x20#8 } } }
  (∀ (x : Act DartChip) (c : Side) (v err : Byte),
    let q := x.chip.ch c
    let special := err.getLsbD 6 = true ∨ (err.getLsbD 4 = true ∧ q.wr1.extractLsb' 3 2 = 0b10#2)
    (q.fifo.n < 3 → rxPush c v err x =
      { x with chip := (x.chip.withCh c (stored v err)).arrival c (if special then 3#2 else 2#2) }) ∧
    (q.fifo.n = 3 → rxPush c v err x = { x with chip := (x.chip.withCh c lost).arrival c 3#2 })) ∧
  (∀ (s : State) (k : Nat) (d : DartChip) (c : Side) (v : Byte), s.hasDart k d →
    ((d.ch c).fifo.n < 3 → exec (.dartReceiveData k c v) s =
      .next (s.afterDart k ((d.withCh c (stored v 0x00#8)).arrival c 2#2) [] .none)) ∧
    ((d.ch c).fifo.n = 3 → exec (.dartReceiveData k c v) s =
      .next (s.afterDart k ((d.withCh c lost).arrival c 3#2) [] .none)))

/-- Three characters received into an empty FIFO, and a fourth that overruns, come out oldest first: exactly the first
three, and RR1 shows OVERRUN (the spec's own choice D29). -/
def Obligations.FifoOrderAndOverrun : Prop :=
  ∀ (s : State) (k : Nat) (d : DartChip) (c : Side) (v0 v1 v2 v3 : Byte), s.hasDart k d → (d.ch c).fifo.n = 0 →
    ∃ s0 s1 s2 s3 r0 r1 r2 : State, ∃ e e' : DartChip,
      exec (.dartReceiveData k c v0) s = .next s0 ∧ exec (.dartReceiveData k c v1) s0 = .next s1 ∧
      exec (.dartReceiveData k c v2) s1 = .next s2 ∧ exec (.dartReceiveData k c v3) s2 = .next s3 ∧
      s3.hasDart k e ∧ (e.ch c).fifo.n = 3 ∧ (e.ch c).rr1.getLsbD 5 = true ∧
      exec (.dartDataRead k c) s3 = .next r0 ∧ r0.answer = .byte v0 ∧
      exec (.dartDataRead k c) r0 = .next r1 ∧ r1.answer = .byte v1 ∧
      exec (.dartDataRead k c) r1 = .next r2 ∧ r2.answer = .byte v2 ∧
      r2.hasDart k e' ∧ (e'.ch c).fifo.n = 0 ∧ (e'.ch c).rr1.getLsbD 5 = true ∧ (e'.ch c).rr0.getLsbD 0 = false

/-- The modem inputs: no edge, no effect; else the latch follows the pin, auto-enables act on the asserting edge of CTS
(transmitter) and DCD (receiver), and RR0 and the external/status request follow unless RR0 is latched (the spec's own
reading D32). AUTO_EN is bit 5 of WR3, EXT_IE bit 0 of WR1, in the spec's own layout (D23). -/
def Obligations.ModemLineInputs : Prop :=
  ∀ (s : State) (k : Nat) (d : DartChip) (c : Side) (l : Level), s.hasDart k d →
    exec (.dartCtsW k c l) s =
      .next (s.afterDart k
        (if l = (d.ch c).cts then d
         else (d.withCh c fun q =>
            { q with cts := l, wr5 := if !l && q.wr3.getLsbD 5 then q.wr5 ||| 0x08#8 else q.wr5 }).lineChanged c 0x20#8 l)
        [] .none) ∧
    exec (.dartDcdW k c l) s =
      .next (s.afterDart k
        (if l = (d.ch c).dcd then d
         else (d.withCh c fun q =>
            { q with dcd := l, wr3 := if !l && q.wr3.getLsbD 5 then q.wr3 ||| 0x01#8 else q.wr3 }).lineChanged c 0x08#8 l)
        [] .none) ∧
    exec (.dartRiW k c l) s =
      .next (s.afterDart k
        (if l = (d.ch c).ri then d else (d.withCh c fun q => { q with ri := l }).lineChanged c 0x10#8 l) [] .none)

/-! DART clocks and framing. -/

/-- The clock operations and the divider: a pulse below the multiplier only counts; the pulse that reaches it clears the
counter and runs one bit-time. Channel B's one clock serves the receiver, then the transmitter (the spec's own choice
D35; the multiplier's codes D23). -/
def Obligations.ClockPulsesAndDivider : Prop :=
  (∀ (x : Act DartChip) (c : Side),
    let m : Nat := match (x.chip.ch c).wr4.extractLsb' 6 2 with
      | 0b00#2 => 1
      | 0b01#2 => 16
      | 0b10#2 => 32
      | _ => 64
    rxClock c x =
      (if (x.chip.ch c).rxDiv + 1 < m then x.onCh c fun q => { q with rxDiv := q.rxDiv + 1 }
       else rxStep c (x.onCh c fun q => { q with rxDiv := 0 })) ∧
    txClock c x =
      (if (x.chip.ch c).txDiv + 1 < m then x.onCh c fun q => { q with txDiv := q.txDiv + 1 }
       else txStep c (x.onCh c fun q => { q with txDiv := 0 }))) ∧
  (∀ (s : State) (k : Nat) (d : DartChip), s.hasDart k d →
    exec (.dartRxcaW k) s = .next (s.commit k ((rxClock .a (Act.begin d)).lift .dart)) ∧
    exec (.dartTxcaW k) s = .next (s.commit k ((txClock .a (Act.begin d)).lift .dart)) ∧
    exec (.dartRxtxcbW k) s = .next (s.commit k ((txClock .b (rxClock .b (Act.begin d))).lift .dart)))

/-- One receive bit-time, state by state (R290 to R296): what is sampled, what is recorded, the next framing state. The
readings of the start edge, the short words and the parity request are the spec's own (D36, D38), as are the bits of WR1,
WR3, WR4 (D23) and the word length codes 00, 01, 10, 11 for 5, 7, 6, 8 bits (R118, D37). -/
def Obligations.ReceiveBitTimes : Prop :=
  ∀ (x : Act DartChip) (c : Side),
    let q := x.chip.ch c
    let n : Nat := match q.wr3.extractLsb' 6 2 with
      | 0b00#2 => 5
      | 0b01#2 => 7
      | 0b10#2 => 6
      | _ => 8
    let sampled := x.onCh c fun r => { r with rxErr := if r.rxd then r.rxErr else r.rxErr ||| 0x40#8 }
    let delivered := (rxPush c q.rxShift (sampled.chip.ch c).rxErr sampled).onCh c fun r => { r with rxState := .start }
    let after : Frame := if q.wr4.getLsbD 0 then .parity else .stop
    let wrong := q.rxd ≠ (if q.wr4.getLsbD 1 then q.rxPar else !q.rxPar)
    let flagged := x.onCh c fun r => { r with rxErr := r.rxErr ||| 0x10#8 }
    (q.rxState = .start → rxStep c x =
      if q.wr3.getLsbD 0 = true ∧ q.rxd = false then
        x.onCh c fun r => { r with rxShift := 0x00#8, rxBits := 0, rxPar := false, rxErr := 0x00#8, rxState := .data }
      else x) ∧
    (q.rxState = .data → rxStep c x =
      x.onCh c fun r =>
        { r with
          rxShift := BitVec.ofBool r.rxd ++ r.rxShift.extractLsb' 1 7, rxPar := xor r.rxPar r.rxd,
          rxBits := r.rxBits + 1, rxState := if r.rxBits + 1 < n then .data else after }) ∧
    (q.rxState = .parity → rxStep c x =
      (if wrong then
          (if q.wr1.extractLsb' 3 2 = 0b10#2 then { flagged with chip := flagged.chip.requested c 3#2 } else flagged)
        else x).onCh c fun r =>
        { r with rxState := .stop }) ∧
    (q.rxState = .stop → rxStep c x =
      if q.wr4.extractLsb' 2 2 = 0b01#2 then delivered else sampled.onCh c fun r => { r with rxState := .stop2 }) ∧
    (q.rxState = .stop2 → rxStep c x = delivered)

/-- The transmit Start state (R301) takes a waiting byte when the transmitter is enabled, else holds break or mark. The
bits of WR5, WR1 and RR0 it looks at are the spec's own layout (D23), its details D39. -/
def Obligations.TransmitStartState : Prop :=
  ∀ (x : Act DartChip) (c : Side), (x.chip.ch c).txState = .start →
    let q := x.chip.ch c
    let y := (x.onCh c fun r =>
      { r with txd := false, txShift := r.txData, txBits := 0, txPar := false, rr0 := r.rr0 ||| 0x04#8 }).emit
        (.txd c false)
    txStep c x =
      if q.wr5.getLsbD 3 = true ∧ q.rr0.getLsbD 2 = false then
        (if q.wr1.getLsbD 1 then { y with chip := y.chip.requested c 0#2 } else y).onCh c fun r => { r with txState := .data }
      else (x.onCh c fun r => { r with txd := !q.wr5.getLsbD 4 }).emit (.txd c (!q.wr5.getLsbD 4))

/-- The other transmit bit-times (R302 to R306): bits leave least significant first, parity, one or two stop bits, and at
the end ALL_SENT and the deferred release of RTS if nothing further waits (the spec's own readings D38, D39). The bits of
WR4, WR5, RR0, RR1 are the spec's own layout (D23), the word length codes its choice D37 (R118). -/
def Obligations.TransmitBitTimes : Prop :=
  ∀ (x : Act DartChip) (c : Side),
    let q := x.chip.ch c
    let n : Nat := match q.wr5.extractLsb' 5 2 with
      | 0b00#2 => 5
      | 0b01#2 => 7
      | 0b10#2 => 6
      | _ => 8
    let driven := fun l : Level => (x.onCh c fun r => { r with txd := l }).emit (.txd c l)
    let after : Frame := if q.wr4.getLsbD 0 then .parity else .stop
    let sent := (driven true).onCh c fun r => { r with rr1 := r.rr1 ||| 0x01#8 }
    let released := (sent.onCh c fun r => { r with rts := true }).emit (.rts c true)
    let finished := (
      if q.rr0.getLsbD 2 = false then driven true
      else if q.wr5.getLsbD 1 = false ∧ q.rts = false then released
      else sent).onCh c fun r => { r with txState := .start }
    (q.txState = .data → txStep c x =
      (driven (q.txShift.getLsbD 0)).onCh c fun r =>
        { r with
          txShift := 0#1 ++ r.txShift.extractLsb' 1 7, txPar := xor r.txPar (r.txShift.getLsbD 0),
          txBits := r.txBits + 1, txState := if r.txBits + 1 < n then .data else after }) ∧
    (q.txState = .parity → txStep c x =
      (driven (if q.wr4.getLsbD 1 then q.txPar else !q.txPar)).onCh c fun r => { r with txState := .stop }) ∧
    (q.txState = .stop → txStep c x =
      if q.wr4.extractLsb' 2 2 = 0b01#2 then finished else (driven true).onCh c fun r => { r with txState := .stop2 }) ∧
    (q.txState = .stop2 → txStep c x = finished)

/-- A whole character on the line (R287) is received: with the receiver enabled and waiting, the levels of the frame of
`v` deliver the low `n` bits of `v` in the high positions, with no error flag, and leave the receiver waiting. Only the
shift register, the counters and the line's level differ besides what the delivery does. Word length, stop and parity
codes and the sampling are the spec's own choices D36 to D38, the bits of WR3 and WR4 its layout D23. -/
def Obligations.FramedCharacterIsReceived : Prop :=
  ∀ (d : DartChip) (c : Side) (v : Byte), (d.ch c).rxState = .start →
    (d.ch c).wr3.getLsbD 0 = true →
    let q := d.ch c
    let n : Nat := match q.wr3.extractLsb' 6 2 with
      | 0b00#2 => 5
      | 0b01#2 => 7
      | 0b10#2 => 6
      | _ => 8
    let w : Byte := v <<< (8 - n)
    receiveLevels c (frameLevels n (q.wr4.getLsbD 0) (q.wr4.getLsbD 1) (q.wr4.extractLsb' 2 2 == 0b01#2) v) (Act.begin d) =
      rxPush c w 0x00#8 ((Act.begin d).onCh c fun r =>
        { r with rxShift := w, rxBits := n, rxPar := dataParity v n, rxErr := 0x00#8, rxState := .start, rxd := true })

/-- A waiting byte is sent as a whole character (R287): the levels driven are the frame of the byte, then ALL_SENT is set
and the transmitter waits again. Word length, stop and parity codes are the spec's own choices D37 to D39, the
bits of WR4, WR5, RR0, RR1 its layout D23. -/
def Obligations.TransmitterSendsFrame : Prop :=
  ∀ (d : DartChip) (c : Side), (d.ch c).txState = .start →
    (d.ch c).wr5.getLsbD 3 = true → (d.ch c).rr0.getLsbD 2 = false →
    let q := d.ch c
    let n : Nat := match q.wr5.extractLsb' 5 2 with
      | 0b00#2 => 5
      | 0b01#2 => 7
      | 0b10#2 => 6
      | _ => 8
    let ls := frameLevels n (q.wr4.getLsbD 0) (q.wr4.getLsbD 1) (q.wr4.extractLsb' 2 2 == 0b01#2) q.txData
    let y := transmitSteps c ls.length (Act.begin d)
    txdLevels c y.out = ls ∧ (y.chip.ch c).txState = .start ∧ (y.chip.ch c).rr0.getLsbD 2 = true ∧
      (y.chip.ch c).rr1.getLsbD 0 = true ∧ (q.wr5.getLsbD 1 = false → (y.chip.ch c).rts = true)

/-! The interrupt contract. -/

/-- The arbiter's re-evaluation (R322), for both kinds of chip: a disabled source loses INT and keeps its pending flag; the
first enabled pending source moves it into INT; the second waits; IEO and every other field stand (the spec's own reading
D19). When a source is enabled (R321) is for a DART channel the spec's own choice D27, over the bits of WR1 in its own layout
D23 (log entry 17): external/status, transmit, or a receive interrupt mode other than 0. -/
def Obligations.ArbiterPromotesOneSource : Prop :=
  let ok := fun (enA enB : Bool) (a b a' b' : Source) =>
    a'.ieo = a.ieo ∧ b'.ieo = b.ieo ∧
    (enA = false → a'.int = false ∧ a'.ip = a.ip) ∧
    (enA = true → a.ip = true → a'.int = true ∧ a'.ip = false) ∧
    (enA = true → a.ip = false → a' = a) ∧
    (enB = false → b'.int = false ∧ b'.ip = b.ip) ∧
    (enB = true → b.ip = true → ¬(enA = true ∧ a.ip = true) → b'.int = true ∧ b'.ip = false) ∧
    (enB = true → (b.ip = false ∨ (enA = true ∧ a.ip = true)) → b' = b)
  (∀ c : PioChip,
    let c' := c.checkInterrupt
    ok c.a.ie c.b.ie c.a.src c.b.src c'.a.src c'.b.src ∧
    (c'.withPort .a fun q => { q with src := c.a.src }).withPort .b (fun q => { q with src := c.b.src }) = c) ∧
  (∀ d : DartChip,
    let en := fun q : Channel => q.wr1 &&& 0x1B#8 != 0#8
    let d' := d.checkInterrupt
    ok (en d.a) (en d.b) d.a.src d.b.src d'.a.src d'.b.src ∧
    (d'.withCh .a fun q => { q with src := d.a.src }).withCh .b (fun q => { q with src := d.b.src }) = d)

/-- `irq_state` (R324, D20) is read-only and answers by the two sources; the interrupt line is inactive whenever source A
is under service, and whenever source B is and source A has no request (R332 d). -/
def Obligations.IrqStateScan : Prop :=
  ∀ (s : State) (k : Nat) (c : Chip), s.chips[k]? = some c →
    let a := c.sources.1
    let b := c.sources.2
    exec (.irqState k) s =
      .next { s with
        answer := .irq { int := !a.ieo && (a.int || (!b.ieo && b.int)), ieo := a.ieo || b.ieo } } ∧
    (a.ieo = true → c.intLine = false) ∧ (b.ieo = true → a.int = false → c.intLine = false)

/-- `irq_ack` (R325, R326, D21): the first requesting source goes under service, the arbiter re-runs, its vector is the
answer; with none, source A's vector and the diagnostic, and no state change. -/
def Obligations.AcknowledgeTakesFirstRequest : Prop :=
  let ack := fun r : Source => ({ r with int := false, ieo := true } : Source)
  (∀ (s : State) (k : Nat) (c : PioChip), s.hasPio k c →
    exec (.irqAck k) s =
      .next (
        if c.a.src.int then
          s.afterPio k (c.withPort .a fun q => { q with src := ack q.src }).checkInterrupt [] (.byte c.a.vector)
        else if c.b.src.int then
          s.afterPio k (c.withPort .b fun q => { q with src := ack q.src }).checkInterrupt [] (.byte c.b.vector)
        else s.afterPio k c [.diagnostic .ackWithoutRequest] (.byte c.a.vector))) ∧
  (∀ (s : State) (k : Nat) (d : DartChip), s.hasDart k d →
    exec (.irqAck k) s =
      .next (
        if d.a.src.int then
          s.afterDart k (d.withCh .a fun q => { q with src := ack q.src }).checkInterrupt [] (.byte (d.vectorOf .a))
        else if d.b.src.int then
          s.afterDart k (d.withCh .b fun q => { q with src := ack q.src }).checkInterrupt [] (.byte (d.vectorOf .b))
        else s.afterDart k d [.diagnostic .ackWithoutRequest] (.byte (d.vectorOf .a))))

/-- `irq_reti` (R327, D21): the first source under service is released and the arbiter re-runs; with none, the diagnostic
and no state change. -/
def Obligations.ReturnReleasesFirstService : Prop :=
  let reti := fun r : Source => ({ r with ieo := false } : Source)
  (∀ (s : State) (k : Nat) (c : PioChip), s.hasPio k c →
    exec (.irqReti k) s =
      .next (
        if c.a.src.ieo then
          s.afterPio k (c.withPort .a fun q => { q with src := reti q.src }).checkInterrupt [] .none
        else if c.b.src.ieo then
          s.afterPio k (c.withPort .b fun q => { q with src := reti q.src }).checkInterrupt [] .none
        else s.afterPio k c [.diagnostic .retiWithoutService] .none)) ∧
  (∀ (s : State) (k : Nat) (d : DartChip), s.hasDart k d →
    exec (.irqReti k) s =
      .next (
        if d.a.src.ieo then
          s.afterDart k (d.withCh .a fun q => { q with src := reti q.src }).checkInterrupt [] .none
        else if d.b.src.ieo then
          s.afterDart k (d.withCh .b fun q => { q with src := reti q.src }).checkInterrupt [] .none
        else s.afterDart k d [.diagnostic .retiWithoutService] .none))

/-- `chain_int` (R351, D22) is read-only and answers the first chip that requests, provided no chip before it is under
service; the CPU's request input is asserted exactly when there is one. -/
def Obligations.ChainRequestIsFirstUnblocked : Prop :=
  ∀ s : State, ∃ r : Option Nat,
    exec .chainInt s = .next { s with answer := .requester r } ∧ s.cpuInt = r.isSome ∧
    ∀ k, r = some k ↔
      ((∃ c, s.chips[k]? = some c ∧ c.irqState.int = true) ∧
        ∀ j < k, ∀ c, s.chips[j]? = some c → c.irqState.int = false ∧ c.irqState.ieo = false)

/-- `chain_ack` (R352) and `chain_reti` (R354), D22. With a requester its first requesting source goes under service and its
vector is the answer, with no event and no diagnostic; with none the byte is free (log entry 9) and nothing changes. The
first chip under service gets the return and only it; with none only the chain's diagnostic is raised. -/
def Obligations.ChainAcknowledgeAndReturn : Prop :=
  ∀ s : State,
    (∀ k c, s.requester = some k → s.chips[k]? = some c →
      ∃ t c', exec .chainAck s = .next t ∧ exec (.irqAck k) s = .next t ∧ t.chips = s.chips.set k c' ∧
        t.trace = s.trace ∧
        (c.sources.1.int = true → c'.sources.1.ieo = true ∧ t.answer = .byte (c.vector .a)) ∧
        (c.sources.1.int = false →
          c.sources.2.int = true ∧ c'.sources.2.ieo = true ∧ t.answer = .byte (c.vector .b))) ∧
    (s.requester = none →
      exec .chainAck s =
        .next { s with answer := .byte (Config.freeByte s.draws), draws := s.draws + 1 }) ∧
    (∀ k, (∃ c, s.chips[k]? = some c ∧ c.irqState.ieo = true) →
      (∀ j < k, ∀ c, s.chips[j]? = some c → c.irqState.ieo = false) →
      ∃ t, exec .chainReti s = .next t ∧ exec (.irqReti k) s = .next t ∧ t.trace = s.trace) ∧
    ((∀ c ∈ s.chips, c.irqState.ieo = false) →
      exec .chainReti s = .next { s with answer := .none, trace := s.trace ++ [.chain .retiWithoutService] })

/-- Service state moves only where R332 (b) says: no instruction but an acknowledge puts a source under service; and in a
state that selects its row no instruction but a return, a channel A Channel-reset or a chip reset takes one out. R332 is
itself the spec's derivation. -/
def Obligations.ServiceFlagsMoveOnlyByContract : Prop :=
  ∀ (s t : State) (i : Instr), exec i s = .next t →
    (acknowledges i = false →
      ∀ (k : Nat) (c c' : Chip), s.chips[k]? = some c → t.chips[k]? = some c' →
        (c'.sources.1.ieo = true → c.sources.1.ieo = true) ∧ (c'.sources.2.ieo = true → c.sources.2.ieo = true)) ∧
    (acknowledges i = false → releases i = false → i.selectedIn s.views = true → t.serviceFlags = s.serviceFlags)

/-! Reset. -/

/-- Reset of one chip (R380, R383): every field named takes its value, the others stand, and the output lines are driven.
Beyond the source's four PIO values and the DART's disabled units and released lines the values are the spec's own choices
D18, D40. -/
def Obligations.ChipResetSetsFields : Prop :=
  (∀ (s : State) (k : Nat) (c : PioChip), s.hasPio k c →
    let f := fun q : Port =>
      { q with
        mode := .input, cws := .normal, ie := false, icw := 0#1 ++ q.icw.extractLsb' 0 7, mask := 0xFF#8,
        outLatch := 0x00#8, matched := false, src := Source.idle, rdy := false }
    exec (.resetPio k) s =
      .next (s.afterPio k ((c.withPort .a f).withPort .b f) [.ready .a false, .ready .b false] .none)) ∧
  (∀ (s : State) (k : Nat) (d : DartChip), s.hasDart k d →
    let f := fun q : Channel =>
      { q with
        wr0 := 0x00#8, wr1 := 0x00#8, wr2 := 0x00#8, wr3 := 0x00#8, wr4 := 0x00#8, wr5 := 0x00#8,
        rr0 := 0b00#2 ++ BitVec.ofBool (!q.cts) ++ BitVec.ofBool (!q.ri) ++ BitVec.ofBool (!q.dcd) ++ 0b100#3,
        rr1 := 0x01#8, rr0Latch := false, rxFirst := false, fifo := { q.fifo with n := 0 }, rxState := .start,
        txState := .start, rxBits := 0, txBits := 0, rxPar := false, txPar := false, rxErr := 0x00#8, rxDiv := 0,
        txDiv := 0, cause := 0#2, src := Source.idle, rts := true, dtr := true, txd := true }
    exec (.resetDart k) s =
      .next (s.afterDart k ((d.withCh .a f).withCh .b f)
        [.rts .a true, .dtr .a true, .txd .a true, .rts .b true, .dtr .b true, .txd .b true] .none))

/-- The reset state: well behaved (the base of the invariant), nothing requested, and a further reset of either chip would
change no chip, so every field the spec gives a reset value has it. That the chain is one PIO and one DART is the
model's choice (log entry 2). -/
def Obligations.ResetStateIsQuiet : Prop :=
  State.reset.wellBehaved = true ∧ State.reset.cpuInt = false ∧
  (∀ c ∈ State.reset.chips, c.intLine = false ∧ c.sources = (Source.idle, Source.idle)) ∧
  (∃ t, exec (.resetPio 0) State.reset = .next t ∧ t.chips = State.reset.chips) ∧
  (∃ t, exec (.resetDart 1) State.reset = .next t ∧ t.chips = State.reset.chips)

/-! Whole-machine rules. -/

/-- The invariant: in every well-behaved state (reachable or not) a step leaves a well-behaved state. Well behaved: port B
is never Bidirectional (R26); only enabled sources request (R332 c); at most three characters are buffered and RX_AVAIL
says whether there is one (R247); counters and dividers stay in range (R12, R282); ALL_SENT means idle with nothing
waiting; bits no rule sets are 0 (R48, R49); RR0's line bits show the latches unless latched (R260). This is an
inference from the rules named and from the spec's choices they rest on (D8, D19, D23, D29, D32, D39). -/
def Obligations.StepKeepsWellBehaved : Prop :=
  ∀ s t : State, s.wellBehaved = true → step s = .next t → t.wellBehaved = true

/-- A chip's state is its own (R20): an instruction changes only the chip it addresses, a chain operation only the chip it
selects (which one is the spec's own choice D22). The configuration never changes: the kinds, order and parameters of the
chips, and the pointer parameter (D26; a field of State by the model's choice, log entry 4). The trace only grows: that it
is kept at all is the model's choice (log entry 10). -/
def Obligations.ChipsOwnTheirState : Prop :=
  (∀ (s t : State) (i : Instr) (j : Nat), exec i s = .next t →
    (match i.operand with
      | .anyChip k => j ≠ k
      | .pioChip k => j ≠ k
      | .dartChip k => j ≠ k
      | .wholeChain =>
        (i = .chainAck → s.requester ≠ some j) ∧ (i = .chainReti → s.served ≠ some j)) →
    t.chips[j]? = s.chips[j]?) ∧
  (∀ s t : State, step s = .next t →
    t.configuration = s.configuration ∧ t.readResetsPtr = s.readResetsPtr ∧ ∃ es, t.trace = s.trace ++ es)
end

