-- ==== Sys2Proof/Laws/State.lean ====
section
/-! SUPPORT. One lemma per field per update, each true by definition, so that no proof unfolds a record update. -/

namespace Sys2Proof.Machine

/-! Ports of a PIO. -/

@[simp] theorem PioChip.port_a (c : PioChip) : c.port .a = c.a := rfl
@[simp] theorem PioChip.port_b (c : PioChip) : c.port .b = c.b := rfl
@[simp] theorem PioChip.setPort_a (c : PioChip) (q : Port) : c.setPort .a q = { c with a := q } := rfl
@[simp] theorem PioChip.setPort_b (c : PioChip) (q : Port) : c.setPort .b q = { c with b := q } := rfl
@[simp] theorem PioChip.setPort_cfg (c : PioChip) (p : Side) (q : Port) : (c.setPort p q).cfg = c.cfg := by
  cases p <;> rfl
@[simp] theorem PioChip.port_setPort (c : PioChip) (p : Side) (q : Port) : (c.setPort p q).port p = q := by
  cases p <;> rfl
@[simp] theorem PioChip.setPort_port (c : PioChip) (p : Side) : c.setPort p (c.port p) = c := by
  cases p <;> rfl
@[simp] theorem PioChip.setPort_setPort (c : PioChip) (p : Side) (q r : Port) :
    (c.setPort p q).setPort p r = c.setPort p r := by
  cases p <;> rfl
theorem PioChip.port_setPort_of_ne (c : PioChip) (p p' : Side) (q : Port) (h : p' ≠ p) :
    (c.setPort p q).port p' = c.port p' := by
  cases p <;> cases p' <;> first | rfl | exact absurd rfl h
@[simp] theorem PioChip.withPort_eq (c : PioChip) (p : Side) (f : Port → Port) :
    c.withPort p f = c.setPort p (f (c.port p)) := rfl

/-! Channels of a DART. -/

@[simp] theorem DartChip.ch_a (d : DartChip) : d.ch .a = d.a := rfl
@[simp] theorem DartChip.ch_b (d : DartChip) : d.ch .b = d.b := rfl
@[simp] theorem DartChip.setCh_a (d : DartChip) (q : Channel) : d.setCh .a q = { d with a := q } := rfl
@[simp] theorem DartChip.setCh_b (d : DartChip) (q : Channel) : d.setCh .b q = { d with b := q } := rfl
@[simp] theorem DartChip.setCh_cfg (d : DartChip) (c : Side) (q : Channel) : (d.setCh c q).cfg = d.cfg := by
  cases c <;> rfl
@[simp] theorem DartChip.ch_setCh (d : DartChip) (c : Side) (q : Channel) : (d.setCh c q).ch c = q := by
  cases c <;> rfl
@[simp] theorem DartChip.setCh_ch (d : DartChip) (c : Side) : d.setCh c (d.ch c) = d := by
  cases c <;> rfl
@[simp] theorem DartChip.setCh_setCh (d : DartChip) (c : Side) (q r : Channel) :
    (d.setCh c q).setCh c r = d.setCh c r := by
  cases c <;> rfl
theorem DartChip.ch_setCh_of_ne (d : DartChip) (c c' : Side) (q : Channel) (h : c' ≠ c) :
    (d.setCh c q).ch c' = d.ch c' := by
  cases c <;> cases c' <;> first | rfl | exact absurd rfl h
@[simp] theorem DartChip.withCh_eq (d : DartChip) (c : Side) (f : Channel → Channel) :
    d.withCh c f = d.setCh c (f (d.ch c)) := rfl

/-! Operations in progress. -/

@[simp] theorem Act.begin_chip {α : Type} (c : α) : (Act.begin c).chip = c := rfl
@[simp] theorem Act.begin_out {α : Type} (c : α) : (Act.begin c).out = [] := rfl
@[simp] theorem Act.begin_reply {α : Type} (c : α) : (Act.begin c).reply = .none := rfl
@[simp] theorem Act.apply_chip {α : Type} (x : Act α) (f : α → α) : (x.apply f).chip = f x.chip := rfl
@[simp] theorem Act.apply_out {α : Type} (x : Act α) (f : α → α) : (x.apply f).out = x.out := rfl
@[simp] theorem Act.apply_reply {α : Type} (x : Act α) (f : α → α) : (x.apply f).reply = x.reply := rfl
@[simp] theorem Act.emit_chip {α : Type} (x : Act α) (e : Signal) : (x.emit e).chip = x.chip := rfl
@[simp] theorem Act.emit_out {α : Type} (x : Act α) (e : Signal) : (x.emit e).out = x.out ++ [e] := rfl
@[simp] theorem Act.emit_reply {α : Type} (x : Act α) (e : Signal) : (x.emit e).reply = x.reply := rfl
@[simp] theorem Act.replyWith_chip {α : Type} (x : Act α) (r : Reply) : (x.replyWith r).chip = x.chip := rfl
@[simp] theorem Act.replyWith_out {α : Type} (x : Act α) (r : Reply) : (x.replyWith r).out = x.out := rfl
@[simp] theorem Act.replyWith_reply {α : Type} (x : Act α) (r : Reply) : (x.replyWith r).reply = r := rfl
@[simp] theorem Act.lift_chip {α β : Type} (f : α → β) (x : Act α) : (x.lift f).chip = f x.chip := rfl
@[simp] theorem Act.lift_out {α β : Type} (f : α → β) (x : Act α) : (x.lift f).out = x.out := rfl
@[simp] theorem Act.lift_reply {α β : Type} (f : α → β) (x : Act α) : (x.lift f).reply = x.reply := rfl
@[simp] theorem Act.onPort_chip (x : Act PioChip) (p : Side) (f : Port → Port) :
    (x.onPort p f).chip = x.chip.setPort p (f (x.chip.port p)) := rfl
@[simp] theorem Act.onPort_out (x : Act PioChip) (p : Side) (f : Port → Port) : (x.onPort p f).out = x.out := rfl
@[simp] theorem Act.onPort_reply (x : Act PioChip) (p : Side) (f : Port → Port) : (x.onPort p f).reply = x.reply :=
  rfl
@[simp] theorem Act.onCh_chip (x : Act DartChip) (c : Side) (f : Channel → Channel) :
    (x.onCh c f).chip = x.chip.setCh c (f (x.chip.ch c)) := rfl
@[simp] theorem Act.onCh_out (x : Act DartChip) (c : Side) (f : Channel → Channel) : (x.onCh c f).out = x.out := rfl
@[simp] theorem Act.onCh_reply (x : Act DartChip) (c : Side) (f : Channel → Channel) :
    (x.onCh c f).reply = x.reply := rfl
theorem Act.ext_of {α : Type} {x y : Act α} (h1 : x.chip = y.chip) (h2 : x.out = y.out) (h3 : x.reply = y.reply) :
    x = y := by
  cases x; cases y; simp_all

/-! The state. -/

@[simp] theorem State.withInputs_chips (s : State) (r : List Input) : (s.withInputs r).chips = s.chips := rfl
@[simp] theorem State.withInputs_inputs (s : State) (r : List Input) : (s.withInputs r).inputs = r := rfl
@[simp] theorem State.withInputs_readResetsPtr (s : State) (r : List Input) :
    (s.withInputs r).readResetsPtr = s.readResetsPtr := rfl
@[simp] theorem State.withInputs_answer (s : State) (r : List Input) : (s.withInputs r).answer = s.answer := rfl
@[simp] theorem State.withInputs_trace (s : State) (r : List Input) : (s.withInputs r).trace = s.trace := rfl
@[simp] theorem State.withInputs_draws (s : State) (r : List Input) : (s.withInputs r).draws = s.draws := rfl
@[simp] theorem State.withInputs_views (s : State) (r : List Input) : (s.withInputs r).views = s.views := rfl
@[simp] theorem State.commit_chips (s : State) (k : Nat) (x : Act Chip) :
    (s.commit k x).chips = s.chips.set k x.chip := rfl
@[simp] theorem State.commit_inputs (s : State) (k : Nat) (x : Act Chip) : (s.commit k x).inputs = s.inputs := rfl
@[simp] theorem State.commit_readResetsPtr (s : State) (k : Nat) (x : Act Chip) :
    (s.commit k x).readResetsPtr = s.readResetsPtr := rfl
@[simp] theorem State.commit_answer (s : State) (k : Nat) (x : Act Chip) :
    (s.commit k x).answer = x.reply.toAnswer s.draws := rfl
@[simp] theorem State.commit_trace (s : State) (k : Nat) (x : Act Chip) :
    (s.commit k x).trace = s.trace ++ x.out.map (Event.chip k) := rfl
@[simp] theorem State.commit_draws (s : State) (k : Nat) (x : Act Chip) :
    (s.commit k x).draws = s.draws + x.reply.cost := rfl
@[simp] theorem State.afterPio_chips (s : State) (k : Nat) (c : PioChip) (es : List Signal) (v : Answer) :
    (s.afterPio k c es v).chips = s.chips.set k (.pio c) := rfl
@[simp] theorem State.afterPio_answer (s : State) (k : Nat) (c : PioChip) (es : List Signal) (v : Answer) :
    (s.afterPio k c es v).answer = v := rfl
@[simp] theorem State.afterPio_trace (s : State) (k : Nat) (c : PioChip) (es : List Signal) (v : Answer) :
    (s.afterPio k c es v).trace = s.trace ++ es.map (Event.chip k) := rfl
@[simp] theorem State.afterPio_readResetsPtr (s : State) (k : Nat) (c : PioChip) (es : List Signal) (v : Answer) :
    (s.afterPio k c es v).readResetsPtr = s.readResetsPtr := rfl
@[simp] theorem State.afterDart_chips (s : State) (k : Nat) (d : DartChip) (es : List Signal) (v : Answer) :
    (s.afterDart k d es v).chips = s.chips.set k (.dart d) := rfl
@[simp] theorem State.afterDart_answer (s : State) (k : Nat) (d : DartChip) (es : List Signal) (v : Answer) :
    (s.afterDart k d es v).answer = v := rfl
@[simp] theorem State.afterDart_trace (s : State) (k : Nat) (d : DartChip) (es : List Signal) (v : Answer) :
    (s.afterDart k d es v).trace = s.trace ++ es.map (Event.chip k) := rfl
@[simp] theorem State.afterDart_readResetsPtr (s : State) (k : Nat) (d : DartChip) (es : List Signal) (v : Answer) :
    (s.afterDart k d es v).readResetsPtr = s.readResetsPtr := rfl

/-! Interrupt sources. -/

@[simp] theorem Source.settle_ieo (s : Source) (en free : Bool) : (s.settle en free).ieo = s.ieo := by
  unfold Source.settle; split <;> [rfl; split <;> rfl]
@[simp] theorem Source.acked_int (s : Source) : s.acked.int = false := rfl
@[simp] theorem Source.acked_ieo (s : Source) : s.acked.ieo = true := rfl
@[simp] theorem Source.acked_ip (s : Source) : s.acked.ip = s.ip := rfl
@[simp] theorem Source.released_int (s : Source) : s.released.int = s.int := rfl
@[simp] theorem Source.released_ieo (s : Source) : s.released.ieo = false := rfl
@[simp] theorem Source.released_ip (s : Source) : s.released.ip = s.ip := rfl
@[simp] theorem Source.withdrawn_int (s : Source) : s.withdrawn.int = false := rfl
@[simp] theorem Source.withdrawn_ieo (s : Source) : s.withdrawn.ieo = s.ieo := rfl
@[simp] theorem Source.withdrawn_ip (s : Source) : s.withdrawn.ip = false := rfl

end Sys2Proof.Machine
end

