-- ==== Sys2Proof/Laws/Ops.lean ====
section
/-! SUPPORT. One specification lemma per shared operation: everything it can do, said once. -/

namespace Sys2Proof.Machine

/-! An operation on one chip. -/

theorem onPio_of_hasPio {s : State} {k : Nat} {c : PioChip} (h : s.hasPio k c) (f : PioChip → Act PioChip) :
    onPio k s f = .next (s.commit k ((f c).lift .pio)) := by
  simp only [onPio, show s.chips[k]? = some (.pio c) from h]

theorem onDart_of_hasDart {s : State} {k : Nat} {d : DartChip} (h : s.hasDart k d) (f : DartChip → Act DartChip) :
    onDart k s f = .next (s.commit k ((f d).lift .dart)) := by
  simp only [onDart, show s.chips[k]? = some (.dart d) from h]

theorem onChip_of_get {s : State} {k : Nat} {c : Chip} (h : s.chips[k]? = some c) (f : Chip → Act Chip) :
    onChip k s f = .next (s.commit k (f c)) := by
  simp only [onChip, h]

/-- An operation on a PIO that gives a next state found a PIO there, and only committed its result. -/
theorem onPio_next {s t : State} {k : Nat} {f : PioChip → Act PioChip} (h : onPio k s f = .next t) :
    ∃ c, s.hasPio k c ∧ t = s.commit k ((f c).lift .pio) := by
  unfold onPio at h
  split at h
  · rename_i c hc
    exact ⟨c, hc, (Host.Outcome.next.inj h).symm⟩
  · cases h
  · cases h

/-- The same for a DART. -/
theorem onDart_next {s t : State} {k : Nat} {f : DartChip → Act DartChip} (h : onDart k s f = .next t) :
    ∃ d, s.hasDart k d ∧ t = s.commit k ((f d).lift .dart) := by
  unfold onDart at h
  split at h
  · rename_i d hd
    exact ⟨d, hd, (Host.Outcome.next.inj h).symm⟩
  · cases h
  · cases h

/-- The same for any chip. -/
theorem onChip_next {s t : State} {k : Nat} {f : Chip → Act Chip} (h : onChip k s f = .next t) :
    ∃ c, s.chips[k]? = some c ∧ t = s.commit k (f c) := by
  unfold onChip at h
  split at h
  · rename_i c hc
    exact ⟨c, hc, (Host.Outcome.next.inj h).symm⟩
  · cases h

/-! The stops of an operation on one chip (log entry 14). -/

theorem onPio_absent {s : State} {k : Nat} (h : s.chips.length ≤ k) (f : PioChip → Act PioChip) :
    onPio k s f = .fault (.noSuchChip k) := by
  simp only [onPio, List.getElem?_eq_none h]

theorem onDart_absent {s : State} {k : Nat} (h : s.chips.length ≤ k) (f : DartChip → Act DartChip) :
    onDart k s f = .fault (.noSuchChip k) := by
  simp only [onDart, List.getElem?_eq_none h]

theorem onChip_absent {s : State} {k : Nat} (h : s.chips.length ≤ k) (f : Chip → Act Chip) :
    onChip k s f = .fault (.noSuchChip k) := by
  simp only [onChip, List.getElem?_eq_none h]

theorem onPio_of_hasDart {s : State} {k : Nat} {d : DartChip} (h : s.hasDart k d) (f : PioChip → Act PioChip) :
    onPio k s f = .fault (.wrongKind k) := by
  simp only [onPio, show s.chips[k]? = some (.dart d) from h]

theorem onDart_of_hasPio {s : State} {k : Nat} {c : PioChip} (h : s.hasPio k c) (f : DartChip → Act DartChip) :
    onDart k s f = .fault (.wrongKind k) := by
  simp only [onDart, show s.chips[k]? = some (.pio c) from h]

/-! Requests of a DART channel. -/

/-- `raise_int` only changes the chip, as `DartChip.requested` says. -/
theorem raiseInt_eq (x : Act DartChip) (c : Side) (k : BitVec 2) :
    x.raiseInt c k = { x with chip := x.chip.requested c k } := rfl

/-- `rx_interrupt` only changes the chip, as `DartChip.arrival` says. -/
theorem rxInterrupt_eq (c : Side) (special : Bool) (x : Act DartChip) :
    rxInterrupt c special x = { x with chip := x.chip.arrival c (if special then 3#2 else 2#2) } := by
  unfold rxInterrupt DartChip.arrival
  simp only [Channel.rxIm]
  generalize h : BitVec.extractLsb' 3 2 (x.chip.ch c).wr1 = m
  have hm : m = 0#2 ∨ m = 1#2 ∨ m = 2#2 ∨ m = 3#2 := by clear h; revert m; decide
  rcases hm with rfl | rfl | rfl | rfl <;> simp [raiseInt_eq] <;> split <;> rfl

/-! Committing a result. -/

theorem commit_pio (s : State) (k : Nat) (x : Act PioChip) (h : x.reply ≠ .anyByte) :
    s.commit k (x.lift .pio) = s.afterPio k x.chip x.out (x.reply.toAnswer 0) := by
  cases x with
  | mk c o r => cases r <;> first | rfl | exact absurd rfl h

theorem commit_dart (s : State) (k : Nat) (x : Act DartChip) (h : x.reply ≠ .anyByte) :
    s.commit k (x.lift .dart) = s.afterDart k x.chip x.out (x.reply.toAnswer 0) := by
  cases x with
  | mk c o r => cases r <;> first | rfl | exact absurd rfl h

theorem commit_dart_any (s : State) (k : Nat) (x : Act DartChip) (h : x.reply = .anyByte) (ho : x.out = []) :
    s.commit k (x.lift .dart) = s.afterDartAny k x.chip := by
  cases x with
  | mk c o r => simp_all [State.commit, State.afterDartAny, Reply.toAnswer, Reply.cost]

/-- Writing back the chip that stands at a position changes nothing. -/
theorem set_of_get {l : List Chip} {k : Nat} {c : Chip} (h : l[k]? = some c) : l.set k c = l := by
  apply List.ext_getElem?
  intro i
  rw [List.getElem?_set]
  split
  · rename_i hi; subst hi
    split
    · exact h.symm
    · rename_i hn
      rw [List.getElem?_eq_none (by omega)]
  · rfl

/-! The arbiter. -/

/-- One source in the scan (R322). -/
theorem settle_cases (s : Source) (en free : Bool) :
    (en = false ∧ s.settle en free = { s with int := false }) ∨
    (en = true ∧ s.ip = true ∧ free = true ∧ s.settle en free = { s with ip := false, int := true }) ∨
    (en = true ∧ (s.ip = false ∨ free = false) ∧ s.settle en free = s) := by
  cases en <;> cases free <;> cases h : s.ip <;> simp [Source.settle, h]

/-- After the scan only an enabled source requests, if only enabled ones did before or the source is disabled (R332 c). -/
theorem settle_requestEnabled (s : Source) (en free : Bool) : requestEnabled en (s.settle en free) = true := by
  cases en <;> cases free <;> cases h : s.ip <;> simp [Source.settle, requestEnabled, h]

@[simp] theorem PioChip.checkInterrupt_a (c : PioChip) :
    c.checkInterrupt.a = { c.a with src := c.a.src.settle c.a.ie true } := rfl
@[simp] theorem PioChip.checkInterrupt_b (c : PioChip) :
    c.checkInterrupt.b = { c.b with src := c.b.src.settle c.b.ie (!(c.a.ie && c.a.src.ip)) } := rfl
@[simp] theorem PioChip.checkInterrupt_cfg (c : PioChip) : c.checkInterrupt.cfg = c.cfg := rfl
@[simp] theorem DartChip.checkInterrupt_a (d : DartChip) :
    d.checkInterrupt.a = { d.a with src := d.a.src.settle d.a.enabled true } := rfl
@[simp] theorem DartChip.checkInterrupt_b (d : DartChip) :
    d.checkInterrupt.b = { d.b with src := d.b.src.settle d.b.enabled (!(d.a.enabled && d.a.src.ip)) } := rfl
@[simp] theorem DartChip.checkInterrupt_cfg (d : DartChip) : d.checkInterrupt.cfg = d.cfg := rfl

/-! The chain walks. -/

/-- Everything `requesterFrom` can answer (R351). -/
theorem requesterFrom_some {l : List Chip} {n k : Nat} :
    requesterFrom n l = some k ↔
      n ≤ k ∧ (∃ c, l[k - n]? = some c ∧ c.irqState.int = true) ∧
        ∀ j < k - n, ∀ c, l[j]? = some c → c.irqState.int = false ∧ c.irqState.ieo = false := by
  induction l generalizing n with
  | nil => simp [requesterFrom]
  | cons c cs ih =>
    simp only [requesterFrom]
    by_cases h1 : c.irqState.int = true
    · simp only [h1, if_true, Option.some.injEq]
      constructor
      · rintro rfl
        exact ⟨le_refl _, ⟨c, by simp, h1⟩, by simp⟩
      · rintro ⟨hle, -, hall⟩
        by_contra hne
        have h2 := hall 0 (by omega) c (by simp)
        simp [h1] at h2
    · simp only [h1]
      by_cases h2 : c.irqState.ieo = true
      · simp only [h2, if_true]
        constructor
        · intro h; simp at h
        · rintro ⟨hle, ⟨c', hc', hi⟩, hall⟩
          by_cases hk : k = n
          · subst hk
            simp at hc'
            rw [hc'] at h1
            exact absurd hi h1
          · have h3 := hall 0 (by omega) c (by simp)
            simp [h2] at h3
      · simp only [h2]
        simp only [Bool.false_eq_true, if_false]
        rw [ih]
        have hstep : ∀ m, n ≤ m → m ≠ n → (c :: cs)[m - n]? = cs[m - (n + 1)]? := by
          intro m hm hne
          rw [show m - n = (m - (n + 1)) + 1 from by omega, List.getElem?_cons_succ]
        constructor
        · rintro ⟨hle, ⟨c', hc', hi⟩, hall⟩
          refine ⟨by omega, ⟨c', by rw [hstep k (by omega) (by omega)]; exact hc', hi⟩, ?_⟩
          intro j hj c'' hc''
          cases j with
          | zero =>
            simp at hc''
            subst hc''
            exact ⟨by simpa using h1, by simpa using h2⟩
          | succ j => exact hall j (by omega) c'' (by simpa using hc'')
        · rintro ⟨hle, ⟨c', hc', hi⟩, hall⟩
          have hne : k ≠ n := by
            rintro rfl
            simp at hc'
            rw [hc'] at h1
            exact h1 hi
          refine ⟨by omega, ⟨c', by rw [← hstep k hle hne]; exact hc', hi⟩, ?_⟩
          intro j hj c'' hc''
          exact hall (j + 1) (by omega) c'' (by simpa using hc'')

/-- Everything `servedFrom` can answer (R354). -/
theorem servedFrom_some {l : List Chip} {n k : Nat} :
    servedFrom n l = some k ↔
      n ≤ k ∧ (∃ c, l[k - n]? = some c ∧ c.irqState.ieo = true) ∧
        ∀ j < k - n, ∀ c, l[j]? = some c → c.irqState.ieo = false := by
  induction l generalizing n with
  | nil => simp [servedFrom]
  | cons c cs ih =>
    simp only [servedFrom]
    by_cases h1 : c.irqState.ieo = true
    · simp only [h1, if_true, Option.some.injEq]
      constructor
      · rintro rfl
        exact ⟨le_refl _, ⟨c, by simp, h1⟩, by simp⟩
      · rintro ⟨hle, -, hall⟩
        by_contra hne
        have h2 := hall 0 (by omega) c (by simp)
        simp [h1] at h2
    · simp only [h1]
      simp only [Bool.false_eq_true, if_false]
      rw [ih]
      have hstep : ∀ m, n ≤ m → m ≠ n → (c :: cs)[m - n]? = cs[m - (n + 1)]? := by
        intro m hm hne
        rw [show m - n = (m - (n + 1)) + 1 from by omega, List.getElem?_cons_succ]
      constructor
      · rintro ⟨hle, ⟨c', hc', hi⟩, hall⟩
        refine ⟨by omega, ⟨c', by rw [hstep k (by omega) (by omega)]; exact hc', hi⟩, ?_⟩
        intro j hj c'' hc''
        cases j with
        | zero =>
          simp at hc''
          subst hc''
          simpa using h1
        | succ j => exact hall j (by omega) c'' (by simpa using hc'')
      · rintro ⟨hle, ⟨c', hc', hi⟩, hall⟩
        have hne : k ≠ n := by
          rintro rfl
          simp at hc'
          rw [hc'] at h1
          exact h1 hi
        refine ⟨by omega, ⟨c', by rw [← hstep k hle hne]; exact hc', hi⟩, ?_⟩
        intro j hj c'' hc''
        exact hall (j + 1) (by omega) c'' (by simpa using hc'')

theorem servedFrom_none {l : List Chip} {n : Nat} :
    servedFrom n l = none ↔ ∀ c ∈ l, c.irqState.ieo = false := by
  induction l generalizing n with
  | nil => simp [servedFrom]
  | cons c cs ih =>
    simp only [servedFrom]
    by_cases h1 : c.irqState.ieo = true
    · simp [h1]
    · simp [h1, ih]

/-! One bit-time of a divider (R282). -/

theorem Channel.mult_le (q : Channel) : q.mult ≤ 64 := by
  unfold Channel.mult
  split <;> omega

theorem Channel.mult_pos (q : Channel) : 0 < q.mult := by
  unfold Channel.mult
  split <;> omega

theorem Channel.rxWl_bounds (q : Channel) : 5 ≤ q.rxWl ∧ q.rxWl ≤ 8 := by
  unfold Channel.rxWl wordLength
  split <;> omega

theorem Channel.txWl_bounds (q : Channel) : 5 ≤ q.txWl ∧ q.txWl ≤ 8 := by
  unfold Channel.txWl wordLength
  split <;> omega

end Sys2Proof.Machine
end

