-- ==== Sys2Proof/Laws/PerInstr.lean ====
section
/-! SUPPORT. Per instruction: the encoding has the number of bytes of its row of spec/opcode_table.json and the row's fixed
bits in every byte. -/

namespace Sys2Proof.Laws.RowFixedBits

/-- For each byte of a row, lowest first, its fixed bits: mask and match, as the opcode table gives them. A row without
bits has no byte; a row whose word is wider than a byte counts the bits above the table's width as fixed 0. -/
def fixedBits : Instr → List (Byte × Byte)
  | .busWrite _ _ _ _ => [(0x00#8, 0x00#8), (0xFC#8, 0x04#8)]
  | .busRead _ _ _ => [(0xFC#8, 0x00#8)]
  | .pioVectorWord _ _ _ => [(0x01#8, 0x00#8)]
  | .pioModeOutput _ _ _ => [(0xCF#8, 0x0F#8)]
  | .pioModeInput _ _ _ => [(0xCF#8, 0x4F#8)]
  | .pioModeBidir _ _ _ => [(0xCF#8, 0x8F#8)]
  | .pioModeBitctl _ _ _ => [(0xCF#8, 0xCF#8)]
  | .pioIntControlWord _ _ _ _ _ _ => [(0x0F#8, 0x07#8)]
  | .pioReserved1 _ _ _ => [(0x0F#8, 0x01#8)]
  | .pioReserved3 _ _ _ => [(0x0F#8, 0x03#8)]
  | .pioReserved5 _ _ _ => [(0x0F#8, 0x05#8)]
  | .pioReserved9 _ _ _ => [(0x0F#8, 0x09#8)]
  | .pioReservedB _ _ _ => [(0x0F#8, 0x0B#8)]
  | .pioReservedD _ _ _ => [(0x0F#8, 0x0D#8)]
  | .pioDirectionByte _ _ _ => [(0x00#8, 0x00#8)]
  | .pioMaskByte _ _ _ => [(0x00#8, 0x00#8)]
  | .pioControlRead _ _ => []
  | .pioDataWriteOut _ _ _ => [(0x00#8, 0x00#8)]
  | .pioDataReadOut _ _ => []
  | .pioDataWriteIn _ _ _ => [(0x00#8, 0x00#8)]
  | .pioDataReadIn _ _ => []
  | .pioDataWriteBidir _ _ _ => [(0x00#8, 0x00#8)]
  | .pioDataReadBidir _ _ => []
  | .pioDataWriteBitctl _ _ _ => [(0x00#8, 0x00#8)]
  | .pioDataReadBitctl _ _ => []
  | .pioStrobeOut _ _ _ => []
  | .pioStrobeIn _ _ _ => []
  | .pioStrobeBidirA _ _ => []
  | .pioStrobeBWhileABidir _ _ => []
  | .pioStrobeBitctl _ _ _ => []
  | .pioPollTick _ => []
  | .dartWr0Null _ _ _ _ => [(0x38#8, 0x00#8)]
  | .dartWr0Cmd1 _ _ _ _ => [(0x38#8, 0x08#8)]
  | .dartWr0ResetExtStatus _ _ _ _ => [(0x38#8, 0x10#8)]
  | .dartWr0ChannelReset _ _ _ _ => [(0x38#8, 0x18#8)]
  | .dartWr0EnableIntNextRx _ _ _ _ => [(0x38#8, 0x20#8)]
  | .dartWr0Cmd5 _ _ _ _ => [(0x38#8, 0x28#8)]
  | .dartWr0ErrorReset _ _ _ _ => [(0x38#8, 0x30#8)]
  | .dartWr0ReturnFromInt _ _ _ _ => [(0x38#8, 0x38#8)]
  | .dartWr1 _ _ _ => [(0x00#8, 0x00#8)]
  | .dartWr2 _ _ _ => [(0x00#8, 0x00#8)]
  | .dartWr3 _ _ _ => [(0x00#8, 0x00#8)]
  | .dartWr4 _ _ _ => [(0x00#8, 0x00#8)]
  | .dartWr5 _ _ _ => [(0x00#8, 0x00#8)]
  | .dartWr6Wr7Discard _ _ _ => [(0x00#8, 0x00#8)]
  | .dartReadRr0 _ _ => []
  | .dartReadRr1 _ _ => []
  | .dartReadRr2 _ => []
  | .dartReadReserved _ _ => []
  | .dartDataWrite _ _ _ => [(0x00#8, 0x00#8)]
  | .dartDataRead _ _ => []
  | .dartReceiveData _ _ _ => []
  | .dartCtsW _ _ _ => []
  | .dartDcdW _ _ _ => []
  | .dartRiW _ _ _ => []
  | .dartRxcaW _ => []
  | .dartTxcaW _ => []
  | .dartRxtxcbW _ => []
  | .irqState _ => []
  | .irqAck _ => []
  | .irqReti _ => []
  | .chainInt => []
  | .chainAck => []
  | .chainReti => []
  | .resetPio _ => []
  | .resetDart _ => []

/-- Every byte of the encoding matches the fixed bits of its row. -/
def matchesRow : List Byte → List (Byte × Byte) → Bool
  | [], [] => true
  | b :: bs, (m, v) :: rs => (b &&& m == v) && matchesRow bs rs
  | _, _ => false

/-- The statement of the family. -/
def Statement (i : Instr) : Prop := matchesRow (encode i) (fixedBits i) = true

theorem busWrite (k : Nat) (selC selB : Bool) (d : Byte) : Statement (.busWrite k selC selB d) := by
  simp only [Statement, encode, fixedBits, matchesRow, BitVec.and_zero, beq_self_eq_true, Bool.true_and]
  revert selC selB; decide
theorem busRead (k : Nat) (selC selB : Bool) : Statement (.busRead k selC selB) := by
  simp only [Statement, encode, fixedBits, matchesRow]
  revert selC selB; decide
theorem pioVectorWord (k : Nat) (p : Side) (v : BitVec 7) : Statement (.pioVectorWord k p v) := by
  simp only [Statement, encode, fixedBits, matchesRow]
  revert v; decide
theorem pioModeOutput (k : Nat) (p : Side) (x : BitVec 2) : Statement (.pioModeOutput k p x) := by
  simp only [Statement, encode, fixedBits, matchesRow]
  revert x; decide
theorem pioModeInput (k : Nat) (p : Side) (x : BitVec 2) : Statement (.pioModeInput k p x) := by
  simp only [Statement, encode, fixedBits, matchesRow]
  revert x; decide
theorem pioModeBidir (k : Nat) (p : Side) (x : BitVec 2) : Statement (.pioModeBidir k p x) := by
  simp only [Statement, encode, fixedBits, matchesRow]
  revert x; decide
theorem pioModeBitctl (k : Nat) (p : Side) (x : BitVec 2) : Statement (.pioModeBitctl k p x) := by
  simp only [Statement, encode, fixedBits, matchesRow]
  revert x; decide
theorem pioIntControlWord (k : Nat) (p : Side) (ei ao hl mf : Bool) : Statement (.pioIntControlWord k p ei ao hl mf) := by
  simp only [Statement, encode, fixedBits, matchesRow]
  revert ei ao hl mf; decide
theorem pioReserved1 (k : Nat) (p : Side) (x : BitVec 4) : Statement (.pioReserved1 k p x) := by
  simp only [Statement, encode, fixedBits, matchesRow]
  revert x; decide
theorem pioReserved3 (k : Nat) (p : Side) (x : BitVec 4) : Statement (.pioReserved3 k p x) := by
  simp only [Statement, encode, fixedBits, matchesRow]
  revert x; decide
theorem pioReserved5 (k : Nat) (p : Side) (x : BitVec 4) : Statement (.pioReserved5 k p x) := by
  simp only [Statement, encode, fixedBits, matchesRow]
  revert x; decide
theorem pioReserved9 (k : Nat) (p : Side) (x : BitVec 4) : Statement (.pioReserved9 k p x) := by
  simp only [Statement, encode, fixedBits, matchesRow]
  revert x; decide
theorem pioReservedB (k : Nat) (p : Side) (x : BitVec 4) : Statement (.pioReservedB k p x) := by
  simp only [Statement, encode, fixedBits, matchesRow]
  revert x; decide
theorem pioReservedD (k : Nat) (p : Side) (x : BitVec 4) : Statement (.pioReservedD k p x) := by
  simp only [Statement, encode, fixedBits, matchesRow]
  revert x; decide
theorem pioDirectionByte (k : Nat) (p : Side) (d : Byte) : Statement (.pioDirectionByte k p d) := by
  simp [Statement, encode, fixedBits, matchesRow]
theorem pioMaskByte (k : Nat) (p : Side) (m : Byte) : Statement (.pioMaskByte k p m) := by
  simp [Statement, encode, fixedBits, matchesRow]
theorem pioControlRead (k : Nat) (p : Side) : Statement (.pioControlRead k p) := rfl
theorem pioDataWriteOut (k : Nat) (p : Side) (d : Byte) : Statement (.pioDataWriteOut k p d) := by
  simp [Statement, encode, fixedBits, matchesRow]
theorem pioDataReadOut (k : Nat) (p : Side) : Statement (.pioDataReadOut k p) := rfl
theorem pioDataWriteIn (k : Nat) (p : Side) (d : Byte) : Statement (.pioDataWriteIn k p d) := by
  simp [Statement, encode, fixedBits, matchesRow]
theorem pioDataReadIn (k : Nat) (p : Side) : Statement (.pioDataReadIn k p) := rfl
theorem pioDataWriteBidir (k : Nat) (p : Side) (d : Byte) : Statement (.pioDataWriteBidir k p d) := by
  simp [Statement, encode, fixedBits, matchesRow]
theorem pioDataReadBidir (k : Nat) (p : Side) : Statement (.pioDataReadBidir k p) := rfl
theorem pioDataWriteBitctl (k : Nat) (p : Side) (d : Byte) : Statement (.pioDataWriteBitctl k p d) := by
  simp [Statement, encode, fixedBits, matchesRow]
theorem pioDataReadBitctl (k : Nat) (p : Side) : Statement (.pioDataReadBitctl k p) := rfl
theorem pioStrobeOut (k : Nat) (p : Side) (l : Level) : Statement (.pioStrobeOut k p l) := rfl
theorem pioStrobeIn (k : Nat) (p : Side) (l : Level) : Statement (.pioStrobeIn k p l) := rfl
theorem pioStrobeBidirA (k : Nat) (l : Level) : Statement (.pioStrobeBidirA k l) := rfl
theorem pioStrobeBWhileABidir (k : Nat) (l : Level) : Statement (.pioStrobeBWhileABidir k l) := rfl
theorem pioStrobeBitctl (k : Nat) (p : Side) (l : Level) : Statement (.pioStrobeBitctl k p l) := rfl
theorem pioPollTick (k : Nat) : Statement (.pioPollTick k) := rfl
theorem dartWr0Null (k : Nat) (c : Side) (x : BitVec 2) (ptr : BitVec 3) : Statement (.dartWr0Null k c x ptr) := by
  simp only [Statement, encode, fixedBits, matchesRow]
  revert x ptr; decide
theorem dartWr0Cmd1 (k : Nat) (c : Side) (x : BitVec 2) (ptr : BitVec 3) : Statement (.dartWr0Cmd1 k c x ptr) := by
  simp only [Statement, encode, fixedBits, matchesRow]
  revert x ptr; decide
theorem dartWr0ResetExtStatus (k : Nat) (c : Side) (x : BitVec 2) (ptr : BitVec 3) : Statement (.dartWr0ResetExtStatus k c x ptr) := by
  simp only [Statement, encode, fixedBits, matchesRow]
  revert x ptr; decide
theorem dartWr0ChannelReset (k : Nat) (c : Side) (x : BitVec 2) (ptr : BitVec 3) : Statement (.dartWr0ChannelReset k c x ptr) := by
  simp only [Statement, encode, fixedBits, matchesRow]
  revert x ptr; decide
theorem dartWr0EnableIntNextRx (k : Nat) (c : Side) (x : BitVec 2) (ptr : BitVec 3) : Statement (.dartWr0EnableIntNextRx k c x ptr) := by
  simp only [Statement, encode, fixedBits, matchesRow]
  revert x ptr; decide
theorem dartWr0Cmd5 (k : Nat) (c : Side) (x : BitVec 2) (ptr : BitVec 3) : Statement (.dartWr0Cmd5 k c x ptr) := by
  simp only [Statement, encode, fixedBits, matchesRow]
  revert x ptr; decide
theorem dartWr0ErrorReset (k : Nat) (c : Side) (x : BitVec 2) (ptr : BitVec 3) : Statement (.dartWr0ErrorReset k c x ptr) := by
  simp only [Statement, encode, fixedBits, matchesRow]
  revert x ptr; decide
theorem dartWr0ReturnFromInt (k : Nat) (c : Side) (x : BitVec 2) (ptr : BitVec 3) : Statement (.dartWr0ReturnFromInt k c x ptr) := by
  simp only [Statement, encode, fixedBits, matchesRow]
  revert x ptr; decide
theorem dartWr1 (k : Nat) (c : Side) (v : Byte) : Statement (.dartWr1 k c v) := by
  simp [Statement, encode, fixedBits, matchesRow]
theorem dartWr2 (k : Nat) (c : Side) (v : Byte) : Statement (.dartWr2 k c v) := by
  simp [Statement, encode, fixedBits, matchesRow]
theorem dartWr3 (k : Nat) (c : Side) (v : Byte) : Statement (.dartWr3 k c v) := by
  simp [Statement, encode, fixedBits, matchesRow]
theorem dartWr4 (k : Nat) (c : Side) (v : Byte) : Statement (.dartWr4 k c v) := by
  simp [Statement, encode, fixedBits, matchesRow]
theorem dartWr5 (k : Nat) (c : Side) (v : Byte) : Statement (.dartWr5 k c v) := by
  simp [Statement, encode, fixedBits, matchesRow]
theorem dartWr6Wr7Discard (k : Nat) (c : Side) (x : Byte) : Statement (.dartWr6Wr7Discard k c x) := by
  simp [Statement, encode, fixedBits, matchesRow]
theorem dartReadRr0 (k : Nat) (c : Side) : Statement (.dartReadRr0 k c) := rfl
theorem dartReadRr1 (k : Nat) (c : Side) : Statement (.dartReadRr1 k c) := rfl
theorem dartReadRr2 (k : Nat) : Statement (.dartReadRr2 k) := rfl
theorem dartReadReserved (k : Nat) (c : Side) : Statement (.dartReadReserved k c) := rfl
theorem dartDataWrite (k : Nat) (c : Side) (d : Byte) : Statement (.dartDataWrite k c d) := by
  simp [Statement, encode, fixedBits, matchesRow]
theorem dartDataRead (k : Nat) (c : Side) : Statement (.dartDataRead k c) := rfl
theorem dartReceiveData (k : Nat) (c : Side) (d : Byte) : Statement (.dartReceiveData k c d) := rfl
theorem dartCtsW (k : Nat) (c : Side) (l : Level) : Statement (.dartCtsW k c l) := rfl
theorem dartDcdW (k : Nat) (c : Side) (l : Level) : Statement (.dartDcdW k c l) := rfl
theorem dartRiW (k : Nat) (c : Side) (l : Level) : Statement (.dartRiW k c l) := rfl
theorem dartRxcaW (k : Nat) : Statement (.dartRxcaW k) := rfl
theorem dartTxcaW (k : Nat) : Statement (.dartTxcaW k) := rfl
theorem dartRxtxcbW (k : Nat) : Statement (.dartRxtxcbW k) := rfl
theorem irqState (k : Nat) : Statement (.irqState k) := rfl
theorem irqAck (k : Nat) : Statement (.irqAck k) := rfl
theorem irqReti (k : Nat) : Statement (.irqReti k) := rfl
theorem chainInt : Statement (.chainInt) := rfl
theorem chainAck : Statement (.chainAck) := rfl
theorem chainReti : Statement (.chainReti) := rfl
theorem resetPio (k : Nat) : Statement (.resetPio k) := rfl
theorem resetDart (k : Nat) : Statement (.resetDart k) := rfl

end Sys2Proof.Laws.RowFixedBits
end

