-- ==== Sys2Proof/Tests/Slice0.lean ====
section
/-! SUPPORT. The model's own tests: the checks of WellFormed, the decoding of a written-out word for every constructor, one
or two small steps per instruction with results taken from spec/95_test_vectors.md (named V-…), and for every statement
with hypotheses a witness that meets them. -/

namespace Sys2Proof.Tests

open Sys2Proof Sys2Proof.Machine

/-! Helpers: the block of State.reset with one port or channel replaced, and what a result shows. -/

def q0 : Port := Port.atReset
def c0 : Channel := Channel.atReset

/-- Both ports given. -/
def pioWith (a b : Port) : State :=
  { State.reset with chips := [.pio { PioChip.atReset with a := a, b := b }, .dart DartChip.atReset] }

/-- Both channels given. -/
def dartWith (a b : Channel) : State :=
  { State.reset with chips := [.pio PioChip.atReset, .dart { DartChip.atReset with a := a, b := b }] }

def pioOf (o : Out) : Option PioChip :=
  match o with
  | .next s =>
    match (s.chips[0]? : Option Chip) with
    | some (.pio c) => some c
    | _ => none
  | _ => none

def dartOf (o : Out) : Option DartChip :=
  match o with
  | .next s =>
    match (s.chips[1]? : Option Chip) with
    | some (.dart d) => some d
    | _ => none
  | _ => none

def portOf (o : Out) (p : Side) : Option Port := (pioOf o).map fun c => c.port p
def chOf (o : Out) (c : Side) : Option Channel := (dartOf o).map fun d => d.ch c

def answerOf (o : Out) : Option Answer :=
  match o with
  | .next s => some s.answer
  | _ => none

def traceOf (o : Out) : Option (List Event) :=
  match o with
  | .next s => some s.trace
  | _ => none

/-- The instruction after another one. -/
def thenExec (o : Out) (i : Instr) : Out :=
  match o with
  | .next s => exec i s
  | other => other

def intSrc : Source := { ip := false, int := true, ieo := false }
def ieoSrc : Source := { ip := false, int := false, ieo := true }
def ipSrc : Source := { ip := true, int := false, ieo := false }

/-! WellFormed: each check refuses an ill-formed term. -/

theorem test_wf_accepts_pio : (Instr.pioModeOutput 0 .a 0#2).wellFormed State.reset.views = true := by decide
theorem test_wf_accepts_dart : (Instr.dartWr1 1 .a 0x18#8).wellFormed State.reset.views = true := by decide
theorem test_wf_refuses_position : (Instr.busRead 2 false false).wellFormed State.reset.views = false := by decide
theorem test_wf_refuses_pio_position : (Instr.pioPollTick 2).wellFormed State.reset.views = false := by decide
theorem test_wf_refuses_dart_position : (Instr.dartRxcaW 2).wellFormed State.reset.views = false := by decide
theorem test_wf_refuses_dart_as_pio : (Instr.pioPollTick 1).wellFormed State.reset.views = false := by decide
theorem test_wf_refuses_pio_as_dart : (Instr.dartDataRead 0 .b).wellFormed State.reset.views = false := by decide
theorem test_wf_refuses_bidir_write_b : (Instr.pioDataWriteBidir 0 .b 0#8).wellFormed State.reset.views = false := by
  decide
theorem test_wf_refuses_bidir_read_b : (Instr.pioDataReadBidir 0 .b).wellFormed State.reset.views = false := by decide

/-! Decoding: a word of each row, its bits written out from R110, R111, R120 to R122. -/

theorem test_decode_busWrite :
    decodeBytes (.bus 0) [0b01000010#8, 0b00000110#8] = .ok (.busWrite 0 true false 0x42#8) := by decide
theorem test_decode_busRead : decodeBytes (.bus 0) [0b00000001#8] = .ok (.busRead 0 false true) := by decide
theorem test_decode_pioVectorWord :
    decodeBytes (.pioControl 0 .a .normal) [0b11100100#8] = .ok (.pioVectorWord 0 .a 0b1110010#7) := by decide
theorem test_decode_pioModeOutput :
    decodeBytes (.pioControl 0 .a .normal) [0b00101111#8] = .ok (.pioModeOutput 0 .a 0b10#2) := by decide
theorem test_decode_pioModeInput :
    decodeBytes (.pioControl 0 .a .normal) [0b01011111#8] = .ok (.pioModeInput 0 .a 0b01#2) := by decide
theorem test_decode_pioModeBidir :
    decodeBytes (.pioControl 0 .a .normal) [0b10001111#8] = .ok (.pioModeBidir 0 .a 0b00#2) := by decide
theorem test_decode_pioModeBitctl :
    decodeBytes (.pioControl 0 .a .normal) [0b11111111#8] = .ok (.pioModeBitctl 0 .a 0b11#2) := by decide
theorem test_decode_pioIntControlWord :
    decodeBytes (.pioControl 0 .a .normal) [0b11010111#8] =
      .ok (.pioIntControlWord 0 .a true true false true) := by decide
theorem test_decode_pioReserved1 :
    decodeBytes (.pioControl 0 .a .normal) [0b10100001#8] = .ok (.pioReserved1 0 .a 0b1010#4) := by decide
theorem test_decode_pioReserved3 :
    decodeBytes (.pioControl 0 .a .normal) [0b10100011#8] = .ok (.pioReserved3 0 .a 0b1010#4) := by decide
theorem test_decode_pioReserved5 :
    decodeBytes (.pioControl 0 .a .normal) [0b10100101#8] = .ok (.pioReserved5 0 .a 0b1010#4) := by decide
theorem test_decode_pioReserved9 :
    decodeBytes (.pioControl 0 .a .normal) [0b10101001#8] = .ok (.pioReserved9 0 .a 0b1010#4) := by decide
theorem test_decode_pioReservedB :
    decodeBytes (.pioControl 0 .a .normal) [0b10101011#8] = .ok (.pioReservedB 0 .a 0b1010#4) := by decide
theorem test_decode_pioReservedD :
    decodeBytes (.pioControl 0 .a .normal) [0b10101101#8] = .ok (.pioReservedD 0 .a 0b1010#4) := by decide
theorem test_decode_pioDirectionByte :
    decodeBytes (.pioControl 0 .b .setDir) [0b00001111#8] = .ok (.pioDirectionByte 0 .b 0x0F#8) := by decide
theorem test_decode_pioMaskByte :
    decodeBytes (.pioControl 0 .b .setMask) [0b10000111#8] = .ok (.pioMaskByte 0 .b 0x87#8) := by decide
theorem test_decode_pioDataWriteOut :
    decodeBytes (.pioData 0 .a .output) [0b10100101#8] = .ok (.pioDataWriteOut 0 .a 0xA5#8) := by decide
theorem test_decode_pioDataWriteIn :
    decodeBytes (.pioData 0 .a .input) [0b10100101#8] = .ok (.pioDataWriteIn 0 .a 0xA5#8) := by decide
theorem test_decode_pioDataWriteBidir :
    decodeBytes (.pioData 0 .a .bidir) [0b10100101#8] = .ok (.pioDataWriteBidir 0 .a 0xA5#8) := by decide
theorem test_decode_pioDataWriteBitctl :
    decodeBytes (.pioData 0 .a .bitctl) [0b10100101#8] = .ok (.pioDataWriteBitctl 0 .a 0xA5#8) := by decide
theorem test_decode_dartWr0Null :
    decodeBytes (.dartControl 1 .b 0#3) [0b10000100#8] = .ok (.dartWr0Null 1 .b 0b10#2 0b100#3) := by decide
theorem test_decode_dartWr0Cmd1 :
    decodeBytes (.dartControl 1 .b 0#3) [0b10001100#8] = .ok (.dartWr0Cmd1 1 .b 0b10#2 0b100#3) := by decide
theorem test_decode_dartWr0ResetExtStatus :
    decodeBytes (.dartControl 1 .b 0#3) [0b10010100#8] =
      .ok (.dartWr0ResetExtStatus 1 .b 0b10#2 0b100#3) := by decide
theorem test_decode_dartWr0ChannelReset :
    decodeBytes (.dartControl 1 .b 0#3) [0b10011100#8] = .ok (.dartWr0ChannelReset 1 .b 0b10#2 0b100#3) := by decide
theorem test_decode_dartWr0EnableIntNextRx :
    decodeBytes (.dartControl 1 .b 0#3) [0b10100100#8] =
      .ok (.dartWr0EnableIntNextRx 1 .b 0b10#2 0b100#3) := by decide
theorem test_decode_dartWr0Cmd5 :
    decodeBytes (.dartControl 1 .b 0#3) [0b10101100#8] = .ok (.dartWr0Cmd5 1 .b 0b10#2 0b100#3) := by decide
theorem test_decode_dartWr0ErrorReset :
    decodeBytes (.dartControl 1 .b 0#3) [0b10110100#8] = .ok (.dartWr0ErrorReset 1 .b 0b10#2 0b100#3) := by decide
theorem test_decode_dartWr0ReturnFromInt :
    decodeBytes (.dartControl 1 .b 0#3) [0b10111100#8] =
      .ok (.dartWr0ReturnFromInt 1 .b 0b10#2 0b100#3) := by decide
theorem test_decode_dartWr1 :
    decodeBytes (.dartControl 1 .a 1#3) [0b00011000#8] = .ok (.dartWr1 1 .a 0x18#8) := by decide
theorem test_decode_dartWr2 :
    decodeBytes (.dartControl 1 .a 2#3) [0b00011000#8] = .ok (.dartWr2 1 .a 0x18#8) := by decide
theorem test_decode_dartWr3 :
    decodeBytes (.dartControl 1 .a 3#3) [0b00011000#8] = .ok (.dartWr3 1 .a 0x18#8) := by decide
theorem test_decode_dartWr4 :
    decodeBytes (.dartControl 1 .a 4#3) [0b00011000#8] = .ok (.dartWr4 1 .a 0x18#8) := by decide
theorem test_decode_dartWr5 :
    decodeBytes (.dartControl 1 .a 5#3) [0b00011000#8] = .ok (.dartWr5 1 .a 0x18#8) := by decide
theorem test_decode_dartWr6 :
    decodeBytes (.dartControl 1 .a 6#3) [0b01010101#8] = .ok (.dartWr6Wr7Discard 1 .a 0x55#8) := by decide
theorem test_decode_dartWr7 :
    decodeBytes (.dartControl 1 .a 7#3) [0b01010101#8] = .ok (.dartWr6Wr7Discard 1 .a 0x55#8) := by decide
theorem test_decode_dartDataWrite :
    decodeBytes (.dartData 1 .b) [0b01010101#8] = .ok (.dartDataWrite 1 .b 0x55#8) := by decide

/-! The rows without bits (R123), and those a state selects. -/

theorem test_decode_pioControlRead :
    decodeRequest State.reset.views (.controlRead 0 .b) = .ok (.pioControlRead 0 .b) := by decide
theorem test_decode_pioDataReadOut :
    decodeRequest [.pio .cdBa .output .input .normal .normal] (.dataRead 0 .a) =
      .ok (.pioDataReadOut 0 .a) := by decide
theorem test_decode_pioDataReadIn :
    decodeRequest [.pio .cdBa .input .input .normal .normal] (.dataRead 0 .a) =
      .ok (.pioDataReadIn 0 .a) := by decide
theorem test_decode_pioDataReadBidir :
    decodeRequest [.pio .cdBa .bidir .input .normal .normal] (.dataRead 0 .a) =
      .ok (.pioDataReadBidir 0 .a) := by decide
theorem test_decode_pioDataReadBitctl :
    decodeRequest [.pio .cdBa .bitctl .input .normal .normal] (.dataRead 0 .a) =
      .ok (.pioDataReadBitctl 0 .a) := by decide
theorem test_decode_pioStrobeOut :
    decodeRequest [.pio .cdBa .output .input .normal .normal] (.strobe 0 .a true) =
      .ok (.pioStrobeOut 0 .a true) := by decide
theorem test_decode_pioStrobeIn :
    decodeRequest [.pio .cdBa .output .input .normal .normal] (.strobe 0 .b false) =
      .ok (.pioStrobeIn 0 .b false) := by decide
theorem test_decode_pioStrobeBidirA :
    decodeRequest [.pio .cdBa .bidir .input .normal .normal] (.strobe 0 .a false) =
      .ok (.pioStrobeBidirA 0 false) := by decide
theorem test_decode_pioStrobeBWhileABidir :
    decodeRequest [.pio .cdBa .bidir .output .normal .normal] (.strobe 0 .b true) =
      .ok (.pioStrobeBWhileABidir 0 true) := by decide
theorem test_decode_pioStrobeBitctl :
    decodeRequest [.pio .cdBa .input .bitctl .normal .normal] (.strobe 0 .b true) =
      .ok (.pioStrobeBitctl 0 .b true) := by decide
theorem test_decode_pioPollTick : decodeRequest State.reset.views (.pollTick 0) = .ok (.pioPollTick 0) := by decide
theorem test_decode_dartReadRr0 :
    decodeRequest [.dart .baCd 0#3 1#3] (.controlRead 0 .a) = .ok (.dartReadRr0 0 .a) := by decide
theorem test_decode_dartReadRr1 :
    decodeRequest [.dart .baCd 0#3 1#3] (.controlRead 0 .b) = .ok (.dartReadRr1 0 .b) := by decide
theorem test_decode_dartReadRr2 :
    decodeRequest [.dart .baCd 2#3 2#3] (.controlRead 0 .b) = .ok (.dartReadRr2 0) := by decide
theorem test_decode_dartReadReserved :
    decodeRequest [.dart .baCd 2#3 2#3] (.controlRead 0 .a) = .ok (.dartReadReserved 0 .a) := by decide
theorem test_decode_dartDataRead :
    decodeRequest State.reset.views (.dataRead 1 .a) = .ok (.dartDataRead 1 .a) := by decide
theorem test_decode_dartReceiveData :
    decodeRequest State.reset.views (.receiveData 1 .a 0x11#8) = .ok (.dartReceiveData 1 .a 0x11#8) := by decide
theorem test_decode_dartCtsW :
    decodeRequest State.reset.views (.ctsW 1 .b false) = .ok (.dartCtsW 1 .b false) := by decide
theorem test_decode_dartDcdW :
    decodeRequest State.reset.views (.dcdW 1 .b false) = .ok (.dartDcdW 1 .b false) := by decide
theorem test_decode_dartRiW : decodeRequest State.reset.views (.riW 1 .b false) = .ok (.dartRiW 1 .b false) := by decide
theorem test_decode_dartRxcaW : decodeRequest State.reset.views (.rxcaW 1) = .ok (.dartRxcaW 1) := by decide
theorem test_decode_dartTxcaW : decodeRequest State.reset.views (.txcaW 1) = .ok (.dartTxcaW 1) := by decide
theorem test_decode_dartRxtxcbW : decodeRequest State.reset.views (.rxtxcbW 1) = .ok (.dartRxtxcbW 1) := by decide
theorem test_decode_irqState : decodeRequest State.reset.views (.irqState 0) = .ok (.irqState 0) := by decide
theorem test_decode_irqAck : decodeRequest State.reset.views (.irqAck 0) = .ok (.irqAck 0) := by decide
theorem test_decode_irqReti : decodeRequest State.reset.views (.irqReti 0) = .ok (.irqReti 0) := by decide
theorem test_decode_chainInt : decodeRequest State.reset.views (.chainInt) = .ok (.chainInt) := by decide
theorem test_decode_chainAck : decodeRequest State.reset.views (.chainAck) = .ok (.chainAck) := by decide
theorem test_decode_chainReti : decodeRequest State.reset.views (.chainReti) = .ok (.chainReti) := by decide
theorem test_decode_resetPio : decodeRequest State.reset.views (.reset 0) = .ok (.resetPio 0) := by decide
theorem test_decode_resetDart : decodeRequest State.reset.views (.reset 1) = .ok (.resetDart 1) := by decide
theorem test_decode_rejects_word : decodeBytes (.bus 0) [0b00001000#8] = .error .badBusWord := by decide
theorem test_decode_rejects_position :
    decodeRequest State.reset.views (.pollTick 2) = .error (.noSuchChip 2) := by decide
theorem test_decode_rejects_kind : decodeRequest State.reset.views (.pollTick 1) = .error (.wrongKind 1) := by decide
theorem test_table_word_bus : decodeTableWord 16 0x442 = some (.busWrite 0 false false 0x42#8) := by decide
theorem test_table_word_pio : decodeTableWord 8 0x0F = some (.pioModeOutput 0 .a 0#2) := by decide

/-! Steps, from the vectors of spec/95_test_vectors.md (V-… and Programs 1 to 5). -/

theorem test_busWrite_mode_word :
    traceOf (exec (.busWrite 0 true false 0x0F#8) State.reset) =
      some [.chip 0 (.ready .a false), .chip 0 (.ready .a true)] := by decide
theorem test_busRead_rr0 : answerOf (exec (.busRead 1 true false) State.reset) = some (.byte 0x04#8) := by decide
theorem test_V_PC1 :
    (portOf (exec (.pioVectorWord 0 .a 0x72#7) State.reset) .a).map (fun q => q.vector) = some 0xE4#8 := by decide
theorem test_V_PC4 :
    (portOf (exec (.pioModeOutput 0 .a 3#2) State.reset) .a).map (fun q => (q.mode, q.rdy)) =
      some (Mode.output, true) := by decide
theorem test_V_PC5 :
    (portOf (exec (.pioModeInput 0 .a 0#2) (pioWith { q0 with mode := .output } q0)) .a).map (fun q => q.mode) =
      some .input := by decide
theorem test_V_PC6 :
    (portOf (exec (.pioModeBidir 0 .a 0#2) State.reset) .a).map (fun q => q.mode) = some .bidir := by decide
theorem test_V_PC7 :
    (portOf (exec (.pioModeBidir 0 .b 0#2) State.reset) .b).map (fun q => (q.mode, q.cws)) =
      some (Mode.input, Cws.normal) := by decide
theorem test_V_PC8 :
    (portOf (exec (.pioModeBitctl 0 .a 0#2) State.reset) .a).map (fun q => (q.mode, q.cws)) =
      some (Mode.bitctl, Cws.setDir) := by decide
theorem test_V_PC10 :
    (portOf (exec (.pioIntControlWord 0 .a true false false false) (pioWith { q0 with src := ipSrc } q0)) .a).map (fun q => (q.icw, q.ie, q.src)) =
      some (0x87#8, true, intSrc) := by decide
theorem test_V_PC14 :
    (portOf (exec (.pioIntControlWord 0 .a true false true true) (pioWith { q0 with ie := true, src := { ip := true, int := true, ieo := true } } q0)) .a).map (fun q => (q.cws, q.src)) =
      some (Cws.setMask, ieoSrc) := by decide
theorem test_V_PC15 : (portOf (exec (.pioReserved3 0 .a 8#4) State.reset) .a).map (fun q => q) = some q0 := by decide
theorem test_reserved_1 :
    (portOf (exec (.pioReserved1 0 .a 0xF#4) State.reset) .a).map (fun q => q) = some q0 := by decide
theorem test_reserved_5 :
    (portOf (exec (.pioReserved5 0 .a 0xF#4) State.reset) .a).map (fun q => q) = some q0 := by decide
theorem test_reserved_9 :
    (portOf (exec (.pioReserved9 0 .a 0xF#4) State.reset) .a).map (fun q => q) = some q0 := by decide
theorem test_reserved_B :
    (portOf (exec (.pioReservedB 0 .a 0xF#4) State.reset) .a).map (fun q => q) = some q0 := by decide
theorem test_reserved_D :
    (portOf (exec (.pioReservedD 0 .a 0xF#4) State.reset) .a).map (fun q => q) = some q0 := by decide
theorem test_V_PC9 :
    (portOf (exec (.pioDirectionByte 0 .b 0x0F#8) (pioWith q0 { q0 with mode := .bitctl, cws := .setDir, matched := true })) .b).map (fun q => (q.ior, q.cws, q.mode, q.matched)) =
      some (0x0F#8, Cws.normal, Mode.bitctl, false) := by decide
theorem test_V_PC17 :
    (portOf (exec (.pioMaskByte 0 .a 0x87#8) (pioWith { q0 with cws := .setMask, icw := 0x17#8 } q0)) .a).map (fun q => (q.mask, q.ie, q.cws)) =
      some (0x87#8, false, Cws.normal) := by decide
theorem test_V_PC16 :
    answerOf (exec (.pioControlRead 0 .a) (pioWith { q0 with inLatch := 0x5A#8 } q0)) =
      some (.byte 0x5A#8) := by decide
theorem test_V_PD1 :
    traceOf (exec (.pioDataWriteOut 0 .a 0x42#8) (pioWith { q0 with mode := .output } q0)) =
      some [.chip 0 (.ready .a false), .chip 0 (.portWrite .a 0x42#8), .chip 0 (.ready .a true)] := by decide
theorem test_V_PD2 :
    answerOf (exec (.pioDataReadOut 0 .a) (pioWith { q0 with mode := .output, outLatch := 0x42#8 } q0)) =
      some (.byte 0x42#8) := by decide
theorem test_V_PD3 :
    (portOf (exec (.pioDataWriteIn 0 .a 0x99#8) State.reset) .a).map (fun q => q.outLatch) =
      some 0x00#8 := by decide
theorem test_V_PD4 :
    traceOf (exec (.pioDataReadIn 0 .a) (pioWith { q0 with inLatch := 0x5A#8 } q0)) =
      some [.chip 0 (.ready .a false), .chip 0 (.ready .a true)] := by decide
theorem test_V_PD5 :
    traceOf (exec (.pioDataWriteBidir 0 .a 0x99#8) (pioWith { q0 with mode := .bidir } q0)) =
      some [.chip 0 (.ready .a false), .chip 0 (.ready .a true)] := by decide
theorem test_V_PD6 :
    traceOf (exec (.pioDataWriteBidir 0 .a 0x77#8) (pioWith { q0 with mode := .bidir, stb := false } q0)) =
      some [.chip 0 (.ready .a false), .chip 0 (.portWrite .a 0x77#8), .chip 0 (.ready .a true)] := by decide
theorem test_V_PD7 :
    answerOf (exec (.pioDataReadBidir 0 .a) (pioWith { q0 with mode := .bidir, inLatch := 0x81#8, outLatch := 0x77#8, ior := 0x0F#8 } q0)) =
      some (.byte 0xF1#8) := by decide
theorem test_V_PD8 :
    traceOf (exec (.pioDataWriteBitctl 0 .b 0x5C#8) (pioWith q0 { q0 with mode := .bitctl, ior := 0xF0#8 })) =
      some [.chip 0 (.portWrite .b 0x0C#8)] := by decide
theorem test_V_PD9 :
    answerOf (exec (.pioDataReadBitctl 0 .b) (pioWith q0 { q0 with mode := .bitctl, ior := 0xF0#8, outLatch := 0x5C#8, inLatch := 0xA0#8 })) =
      some (.byte 0xAC#8) := by decide
theorem test_V_PS2 :
    (portOf (exec (.pioStrobeOut 0 .a true) (pioWith { q0 with mode := .output, ie := true, rdy := true, stb := false } q0)) .a).map (fun q => (q.stb, q.rdy, q.src)) =
      some (true, false, intSrc) := by decide
theorem test_V_PS3 :
    (portOf (exec (.pioStrobeOut 0 .a true) (pioWith { q0 with mode := .output, ie := true, rdy := true } q0)) .a).map (fun q => (q.rdy, q.src)) =
      some (true, Source.idle) := by decide
theorem test_V_PS4 :
    (portOf (exec (.pioStrobeIn 0 .b false) (pioWith q0 { q0 with ie := true, pins := 0x3C#8 })) .b).map (fun q => (q.inLatch, q.stb)) =
      some (0x3C#8, false) := by decide
theorem test_V_PS8 :
    (portOf (exec (.pioStrobeIn 0 .a true) (pioWith { q0 with stb := false } q0)) .a).map (fun q => (q.src, q.rdy)) =
      some (ipSrc, false) := by decide
theorem test_V_PS9 :
    traceOf (exec (.pioStrobeBidirA 0 false) (pioWith { q0 with mode := .bidir, outLatch := 0x66#8 } q0)) =
      some [.chip 0 (.portWrite .a 0x66#8)] := by decide
theorem test_V_PS12 :
    (portOf (exec (.pioStrobeBWhileABidir 0 true) (pioWith { q0 with mode := .bidir } { q0 with ie := true, stb := false })) .b).map (fun q => (q.src, q.stb)) =
      some (intSrc, true) := by decide
theorem test_V_PS13 :
    (portOf (exec (.pioStrobeBWhileABidir 0 true) (pioWith { q0 with mode := .bidir, stb := false } { q0 with ie := true, stb := false })) .b).map (fun q => q.src) =
      some Source.idle := by decide
theorem test_V_PS14 :
    (portOf (exec (.pioStrobeBitctl 0 .a false) (pioWith { q0 with mode := .bitctl } q0)) .a).map (fun q => q) =
      some { q0 with mode := .bitctl, stb := false } := by decide
theorem test_V_PP4 :
    (portOf (exec (.pioPollTick 0) (pioWith q0 { q0 with mode := .bitctl, ior := 0xFF#8, ie := true, icw := 0x97#8, mask := 0x0F#8, pins := 0xEF#8 })) .b).map (fun q => (q.matched, q.src)) =
      some (true, intSrc) := by decide
theorem test_V_PP8 :
    (portOf (exec (.pioPollTick 0) (pioWith q0 { q0 with mode := .bitctl, ior := 0x0F#8, outLatch := 0xA5#8, ie := true, icw := 0xF7#8, mask := 0x0F#8, pins := 0x70#8 })) .b).map (fun q => (q.matched, q.src)) =
      some (true, intSrc) := by decide
theorem test_wr0_null :
    (chOf (exec (.dartWr0Null 1 .b 0#2 3#3) State.reset) .b).map (fun q => (q.wr0, q.ptr)) =
      some (0x03#8, 3#3) := by decide
theorem test_P4_cmd1 :
    (chOf (exec (.dartWr0Cmd1 1 .a 0#2 7#3) State.reset) .a).map (fun q => q) =
      some { c0 with wr0 := 0x0F#8 } := by decide
theorem test_V_DC2 :
    (chOf (exec (.dartWr0ResetExtStatus 1 .a 0#2 4#3) (dartWith { c0 with rr0 := 0x24#8, rr0Latch := true, dcd := false } c0)) .a).map (fun q => (q.rr0, q.rr0Latch, q.ptr)) =
      some (0x0C#8, false, 4#3) := by decide
theorem test_V_DC10 :
    (chOf (exec (.dartWr0ChannelReset 1 .b 0#2 0#3) (dartWith { c0 with src := ieoSrc } { c0 with wr3 := 0xC1#8, wr5 := 0xEA#8, src := intSrc })) .b).map (fun q => (q.wr3, q.wr5, q.src)) =
      some (0xC0#8, 0xE2#8, intSrc) := by decide
theorem test_V_DC11 :
    (chOf (exec (.dartWr0ChannelReset 1 .a 0#2 0#3) (dartWith { c0 with src := ieoSrc } { c0 with src := intSrc })) .b).map (fun q => q.src) =
      some Source.idle := by decide
theorem test_V_DC9 :
    (chOf (exec (.dartWr0EnableIntNextRx 1 .b 0#2 0#3) State.reset) .b).map (fun q => q.rxFirst) =
      some true := by decide
theorem test_V_DC12 :
    (chOf (exec (.dartWr0Cmd5 1 .a 0#2 0#3) State.reset) .a).map (fun q => q) =
      some { c0 with wr0 := 0x28#8 } := by decide
theorem test_V_DC8 :
    (chOf (exec (.dartWr0ErrorReset 1 .a 0#2 0#3) (dartWith { c0 with rr1 := 0x71#8 } c0)) .a).map (fun q => q.rr1) =
      some 0x01#8 := by decide
theorem test_V_DC20 :
    (chOf (exec (.dartWr0ReturnFromInt 1 .b 0#2 0#3) (dartWith { c0 with src := ieoSrc } c0)) .a).map (fun q => q.src) =
      some Source.idle := by decide
theorem test_V_DC21 :
    traceOf (exec (.dartWr0ReturnFromInt 1 .b 0#2 0#3) State.reset) =
      some [.chip 1 (.diagnostic .retiWithoutService)] := by decide
theorem test_R221_withdraws :
    (chOf (exec (.dartWr1 1 .a 0x00#8) (dartWith { c0 with wr0 := 0x01#8, wr1 := 0x18#8, src := { ip := true, int := true, ieo := false } } c0)) .a).map (fun q => (q.wr1, q.src, q.ptr)) =
      some (0x00#8, ipSrc, 0#3) := by decide
theorem test_R222 :
    (chOf (exec (.dartWr2 1 .b 0xE0#8) (dartWith c0 { c0 with wr0 := 0x02#8 })) .b).map (fun q => (q.wr2, q.ptr)) =
      some (0xE0#8, 0#3) := by decide
theorem test_R223_wr3 :
    (chOf (exec (.dartWr3 1 .a 0xC1#8) (dartWith { c0 with wr0 := 0x03#8 } c0)) .a).map (fun q => (q.wr3, q.rxWl, q.rxEn)) =
      some (0xC1#8, 8, true) := by decide
theorem test_V_DC3 :
    (chOf (exec (.dartWr4 1 .a 0x4C#8) (dartWith { c0 with wr0 := 0x14#8 } c0)) .a).map (fun q => (q.wr4, q.mult, q.ptr)) =
      some (0x4C#8, 16, 0#3) := by decide
theorem test_V_DC5 :
    traceOf (exec (.dartWr5 1 .a 0xEA#8) (dartWith { c0 with wr0 := 0x05#8 } c0)) =
      some [.chip 1 (.rts .a false), .chip 1 (.dtr .a false)] := by decide
theorem test_V_DC7 :
    traceOf (exec (.dartWr5 1 .a 0x68#8) (dartWith { c0 with wr0 := 0x05#8, wr5 := 0xEA#8, rr1 := 0x00#8, rts := false, dtr := false } c0)) =
      some [.chip 1 (.dtr .a true)] := by decide
theorem test_V_DC4 :
    (chOf (exec (.dartWr6Wr7Discard 1 .a 0xFF#8) (dartWith { c0 with wr0 := 0x06#8 } c0)) .a).map (fun q => q) =
      some c0 := by decide
theorem test_V_DC13_a :
    answerOf (exec (.dartReadRr0 1 .a) (dartWith c0 { c0 with src := intSrc })) = some (.byte 0x06#8) := by decide
theorem test_V_DC13_b :
    answerOf (exec (.dartReadRr0 1 .b) (dartWith c0 { c0 with src := intSrc })) = some (.byte 0x04#8) := by decide
theorem test_V_DC14 :
    answerOf (exec (.dartReadRr1 1 .a) (dartWith { c0 with wr0 := 0x01#8 } c0)) = some (.byte 0x01#8) := by decide
theorem test_V_DC15 :
    (chOf (exec (.dartReadRr1 1 .a) { dartWith { c0 with wr0 := 0x01#8 } c0 with readResetsPtr := false }) .a).map (fun q => q.ptr) =
      some 1#3 := by decide
theorem test_V_DC18 :
    answerOf (exec (.dartReadRr2 1) (dartWith c0 { c0 with wr0 := 0x02#8, wr1 := 0x04#8, wr2 := 0xE0#8 })) =
      some (.byte 0xE6#8) := by decide
theorem test_V_DC19 :
    answerOf (exec (.dartReadRr2 1) (dartWith { c0 with src := ieoSrc, cause := 1#2 } { c0 with wr0 := 0x02#8, wr1 := 0x04#8, wr2 := 0xE0#8 })) =
      some (.byte 0xEA#8) := by decide
theorem test_V_DC16 :
    (chOf (exec (.dartReadReserved 1 .a) (dartWith { c0 with wr0 := 0x02#8 } c0)) .a).map (fun q => q) =
      some c0 := by decide
theorem test_V_DF1 :
    (chOf (exec (.dartDataWrite 1 .a 0x55#8) State.reset) .a).map (fun q => (q.txData, q.rr0, q.rr1)) =
      some (0x55#8, 0x00#8, 0x00#8) := by decide
theorem test_V_DF3 :
    (chOf (exec (.dartDataRead 1 .a) (dartWith { c0 with rr0 := 0x05#8, rr1 := 0x41#8, fifo := { n := 2, data := ⟨2, 3, 0⟩, err := ⟨0x10, 0, 0⟩ } } c0)) .a).map (fun q => (q.rr0, q.rr1, q.fifo.n)) =
      some (0x05#8, 0x11#8, 1) := by decide
theorem test_V_DF2 : (chOf (exec (.dartDataRead 1 .a) State.reset) .a).map (fun q => q) = some c0 := by decide
theorem test_V_DF5 :
    (chOf (exec (.dartReceiveData 1 .a 0x55#8) (dartWith { c0 with wr1 := 0x08#8, rxFirst := true } c0)) .a).map (fun q => (q.src, q.cause, q.rxFirst)) =
      some (intSrc, 2#2, false) := by decide
theorem test_V_DF11 :
    (chOf (exec (.dartReceiveData 1 .a 0x04#8) (dartWith { c0 with wr1 := 0x18#8, rr0 := 0x05#8, fifo := { n := 3, data := ⟨1, 2, 3⟩, err := ⟨0, 0, 0⟩ } } c0)) .a).map (fun q => (q.cause, q.rr1, q.fifo)) =
      some (3#2, 0x21#8, ({ n := 3, data := ⟨1, 2, 3⟩, err := ⟨0, 0, 0x20⟩ } : Fifo)) := by decide
theorem test_V_DL1 :
    (chOf (exec (.dartCtsW 1 .a false) (dartWith { c0 with wr1 := 0x01#8, wr3 := 0xE0#8, wr5 := 0x60#8 } c0)) .a).map (fun q => (q.wr5, q.rr0, q.cause, q.src, q.rr0Latch)) =
      some (0x68#8, 0x24#8, 1#2, intSrc, true) := by decide
theorem test_V_DL3 :
    (chOf (exec (.dartDcdW 1 .a false) (dartWith { c0 with wr3 := 0xE0#8, rr0 := 0x24#8, cts := true, rr0Latch := true } c0)) .a).map (fun q => (q.dcd, q.wr3, q.rr0)) =
      some (false, 0xE1#8, 0x24#8) := by decide
theorem test_V_DL7 :
    (chOf (exec (.dartDcdW 1 .b false) (dartWith c0 { c0 with dcd := false, rr0 := 0x0C#8 })) .b).map (fun q => q) =
      some { c0 with dcd := false, rr0 := 0x0C#8 } := by decide
theorem test_V_DL5 :
    (chOf (exec (.dartRiW 1 .a false) (dartWith { c0 with wr1 := 0x01#8, rr0 := 0x0C#8, dcd := false, src := ieoSrc } c0)) .a).map (fun q => (q.ri, q.rr0, q.src, q.rr0Latch)) =
      some (false, 0x1C#8, ({ ip := false, int := true, ieo := true } : Source), true) := by decide
theorem test_V_FR1 :
    (chOf (exec (.dartRxcaW 1) (dartWith { c0 with wr4 := 0x44#8, wr3 := 0xC1#8, rxDiv := 15, rxd := false } c0)) .a).map (fun q => (q.rxDiv, q.rxState)) =
      some (0, Frame.data) := by decide
theorem test_V_FR3 :
    (chOf (exec (.dartRxcaW 1) (dartWith { c0 with wr4 := 0x0F#8, wr3 := 0x41#8, wr1 := 0x10#8, rxState := .parity, rxd := true } c0)) .a).map (fun q => (q.rxErr, q.cause, q.src, q.rxState)) =
      some (0x10#8, 3#2, intSrc, Frame.stop) := by decide
theorem test_V_FT3 :
    traceOf (exec (.dartTxcaW 1) (dartWith { c0 with wr4 := 0x04#8, wr5 := 0xE8#8, txState := .stop, rts := false, rr1 := 0x00#8 } c0)) =
      some [.chip 1 (.txd .a true), .chip 1 (.rts .a true)] := by decide
theorem test_V_FT5 :
    traceOf (exec (.dartTxcaW 1) (dartWith { c0 with wr4 := 0x04#8, wr5 := 0x10#8 } c0)) =
      some [.chip 1 (.txd .a false)] := by decide
theorem test_V_FR8 :
    traceOf (exec (.dartRxtxcbW 1) (dartWith c0 { c0 with wr4 := 0x04#8, wr3 := 0xC1#8, wr5 := 0x68#8 })) =
      some [.chip 1 (.txd .b true)] := by decide
theorem test_R324 :
    answerOf (exec (.irqState 0) (pioWith { q0 with src := intSrc } { q0 with src := ieoSrc })) =
      some (.irq { int := true, ieo := true }) := by decide
theorem test_V_IC3 :
    (pioOf (exec (.irqAck 0) (pioWith { q0 with ie := true, vector := 0x20#8, src := intSrc } { q0 with ie := true, vector := 0x22#8, src := ipSrc }))).map (fun c => (c.a.src, c.b.src)) =
      some (ieoSrc, intSrc) := by decide
theorem test_V_IC10 :
    answerOf (exec (.irqAck 1) (dartWith { c0 with wr1 := 0x18#8, cause := 2#2, src := intSrc } { c0 with wr1 := 0x04#8, wr2 := 0xE1#8 })) =
      some (.byte 0xED#8) := by decide
theorem test_V_IC6 :
    (pioOf (exec (.irqReti 0) (pioWith { q0 with src := ieoSrc } { q0 with src := ieoSrc }))).map (fun c => (c.a.src, c.b.src)) =
      some (Source.idle, ieoSrc) := by decide

/-- Two chips: the PIO's port A and the DART's channel A with these sources. -/
def chainWith (a b : Source) : State :=
  { State.reset with
    chips :=
      [.pio { PioChip.atReset with a := { q0 with ie := true, vector := 0x20#8, src := a } },
       .dart { DartChip.atReset with a := { c0 with wr1 := 0x18#8, src := b }, b := { c0 with wr2 := 0xE0#8 } }] }

theorem test_V_IC13 : answerOf (exec (.chainInt) (chainWith ieoSrc intSrc)) = some (.requester none) := by decide
theorem test_V_IC14 : answerOf (exec (.chainInt) (chainWith intSrc ieoSrc)) = some (.requester (some 0)) := by decide
theorem test_R356_ack : answerOf (exec (.chainAck) (chainWith intSrc intSrc)) = some (.byte 0x20#8) := by decide
theorem test_V_IC15 :
    (match exec .chainAck State.reset with | .next t => some (t.chips, t.draws) | _ => none) =
      some (State.reset.chips, 1) := by decide
theorem test_R355_innermost :
    (pioOf (exec .chainReti (chainWith ieoSrc ieoSrc))).map (fun c => c.a.src) = some Source.idle := by decide
theorem test_V_RS3 :
    answerOf (thenExec (exec (.resetPio 0) (chainWith ieoSrc intSrc)) .chainInt) =
      some (.requester (some 1)) := by decide
theorem test_V_RS1 :
    (portOf (exec (.resetPio 0) (pioWith { q0 with mode := .bitctl, cws := .setDir, ie := true, icw := 0xF7#8, mask := 0x0F#8, outLatch := 0x42#8, src := ieoSrc, vector := 0x20#8, ior := 0x0F#8 } q0)) .a).map (fun q => q) =
      some { q0 with icw := 0x77#8, vector := 0x20#8, ior := 0x0F#8 } := by decide
theorem test_V_DC22_events :
    traceOf (exec (.resetDart 1) State.reset) =
      some [.chip 1 (.rts .a true), .chip 1 (.dtr .a true), .chip 1 (.txd .a true), .chip 1 (.rts .b true), .chip 1 (.dtr .b true), .chip 1 (.txd .b true)] := by decide
theorem test_V_DC22 :
    (chOf (exec (.resetDart 1) (dartWith { c0 with cts := false } c0)) .a).map (fun q => (q.rr0, q.rr1)) =
      some (0x24#8, 0x01#8) := by decide
theorem test_step_idle : answerOf (step State.reset) = some .none := by decide
theorem test_step_table_word :
    (portOf (step (State.reset.withFetchWord 8 0x0F)) .a).map (fun q => q.mode) = some .output := by decide
theorem test_step_offset_baCd :
    answerOf (step
      { State.reset with
        chips := [.dart { DartChip.atReset with cfg := { DartChip.atReset.cfg with order := .baCd } }],
        inputs := [.agent (.read 0 1#2)] }) = some (.byte 0x04#8) := by decide


/-- R251: in mode 0b10 a character with a parity error keeps its flag and is reported as special; R249: in mode 0b11 the
same character is reported as received. -/
theorem test_R251_parity_special :
    [0x10#8, 0x18#8].map (fun m =>
      let q := (rxPush .a 0x32#8 0x10#8 (Act.begin { DartChip.atReset with a := { c0 with wr1 := m } })).chip.a
      (q.fifo.n, q.fifo.data.x0, q.fifo.err.x0, q.cause)) =
    [(1, 0x32#8, 0x10#8, 3#2), (1, 0x32#8, 0x10#8, 2#2)] := by decide

/-! Witnesses: for every statement with hypotheses, states and operands that meet them, clause by clause. -/

/-- The chips of `pioWith` and `dartWith`. -/
def pc (a b : Port) : PioChip := { PioChip.atReset with a := a, b := b }
def dc (a b : Channel) : DartChip := { DartChip.atReset with a := a, b := b }

def out0 : Port := { q0 with mode := .output }
def bid0 : Port := { q0 with mode := .bidir }
def bit0 : Port := { q0 with mode := .bitctl }
def dir0 : Port := { q0 with cws := .setDir }
def msk0 : Port := { q0 with cws := .setMask }
/-- A channel whose pointer is `n`. -/
def ptr (n : Byte) : Channel := { c0 with wr0 := n }
/-- A channel with `n` characters buffered. -/
def full (n : Nat) : Channel := { c0 with rr0 := 0x05#8, fifo := { c0.fifo with n := n } }
/-- The reset state with one operation or change waiting. -/
def given (i : Input) : State := { State.reset with inputs := [i] }
/-- The same with both chips in BA_CD order. -/
def baCd (i : Input) : State :=
  { State.reset with
    chips := [.pio { PioChip.atReset with cfg := { PioChip.atReset.cfg with order := .baCd } },
      .dart { DartChip.atReset with cfg := { DartChip.atReset.cfg with order := .baCd } }],
    inputs := [i] }
/-- A state whose DART has fixed-rate clocks of 1 Hz on both sides of channel B only. -/
def timed (e : EnvEvent) : State :=
  { State.reset with
    chips := [.dart { DartChip.atReset with cfg := { DartChip.atReset.cfg with rxHzB := 1, txHzB := 1 } }],
    inputs := [.env e] }

theorem witness_RequestRoundTrip :
    (Instr.busWrite 1 true true 0xFF#8).selectedIn State.reset.views = true ∧
    (Instr.pioIntControlWord 0 .b true true true true).selectedIn State.reset.views = true ∧
    (Instr.pioMaskByte 0 .b 0xFF#8).selectedIn (pioWith q0 msk0).views = true ∧
    (Instr.pioDataReadBidir 0 .a).selectedIn (pioWith bid0 q0).views = true ∧
    (Instr.pioStrobeBWhileABidir 0 false).selectedIn (pioWith bid0 q0).views = true ∧
    (Instr.dartWr0ReturnFromInt 1 .b 3#2 7#3).selectedIn State.reset.views = true ∧
    (Instr.dartWr6Wr7Discard 1 .a 0xFF#8).selectedIn (dartWith (ptr 7#8) c0).views = true ∧
    (Instr.dartReadReserved 1 .a).selectedIn (dartWith (ptr 2#8) c0).views = true ∧
    Instr.chainReti.selectedIn [] = true := by decide

theorem witness_DecodedBytesEncodeBack :
    decodeBytes (.bus 0) [0xFF#8, 0x07#8] = .ok (.busWrite 0 true true 0xFF#8) ∧
    decodeBytes (.bus 0) [0x00#8] = .ok (.busRead 0 false false) ∧
    decodeBytes (.dartControl 1 .b 0#3) [0x3F#8] = .ok (.dartWr0ReturnFromInt 1 .b 0#2 7#3) ∧
    (∀ k, Slot.dartData 1 .b ≠ .bus k) := ⟨by decide, by decide, by decide, fun _ h => by cases h⟩

theorem witness_OffsetAccessFollowsAddrOrder :
    (given (.agent (.write 0 3#2 0xFF#8))).chips[0]? = some (.pio PioChip.atReset) ∧
    (given (.agent (.read 1 0#2))).chips[1]? = some (.dart DartChip.atReset) ∧
    (Chip.pio PioChip.atReset).view.order = .cdBa ∧
    (given (.agent (.read 1 0#2))).inputs = .agent (.read 1 0#2) :: [] ∧
    (∃ c, (baCd (.agent (.write 0 3#2 0#8))).chips[0]? = some c ∧ c.view.order = .baCd) ∧
    (∃ c, (baCd (.agent (.read 1 0#2))).chips[1]? = some c ∧ c.view.order = .baCd) :=
  ⟨rfl, rfl, rfl, rfl, ⟨_, rfl, rfl⟩, ⟨_, rfl, rfl⟩⟩

theorem witness_StepRunsDecodedInstruction :
    (given (.agent (.controlWrite 0 .a 0x0F#8))).inputs = .agent (.controlWrite 0 .a 0x0F#8) :: [] ∧
    decodeRequest (given (.agent (.controlWrite 0 .a 0x0F#8))).views (.controlWrite 0 .a 0x0F#8) =
      .ok (.pioModeOutput 0 .a 0#2) ∧
    (Instr.pioModeOutput 0 .a 0#2).selectedIn (given (.agent (.controlWrite 0 .a 0x0F#8))).views = true ∧
    (given (.agent (.controlWrite 0 .a 0x0F#8))).inputs = .agent (requestOf (.pioModeOutput 0 .a 0#2)) :: [] ∧
    State.reset.inputs = [] := by decide

theorem witness_TableWordRunsNext :
    decodeTableWord 8 0x00 = some (.pioVectorWord 0 .a 0#7) ∧
    decodeTableWord 8 0xFF = some (.pioModeBitctl 0 .a 3#2) ∧
    decodeTableWord 16 0x7FF = some (.busWrite 0 true true 0xFF#8) := by decide

theorem witness_BusAccessPerformsSelectedRow : 0 < State.reset.chips.length ∧ 1 < State.reset.chips.length := by decide

theorem witness_UnselectedFormActsAsItsAccess :
    (Instr.pioModeOutput 0 .a 0#2).wellFormed (pioWith dir0 q0).views = true ∧
    decodeRequest (pioWith dir0 q0).views (requestOf (.pioModeOutput 0 .a 0#2)) = .ok (.pioDirectionByte 0 .a 0x0F#8) ∧
    (Instr.dartReadRr2 1).wellFormed State.reset.views = true ∧
    decodeRequest State.reset.views (requestOf (.dartReadRr2 1)) = .ok (.dartReadRr0 1 .b) := by decide

theorem witness_EveryOperationCompletes :
    (Instr.busRead 1 false false).wellFormed State.reset.views = true ∧
    (Instr.pioDataWriteBidir 0 .a 0xFF#8).wellFormed State.reset.views = true ∧
    (Instr.pioPollTick 0).wellFormed State.reset.views = true ∧
    (Instr.dartRxtxcbW 1).wellFormed State.reset.views = true ∧
    (Instr.irqAck 0).wellFormed State.reset.views = true ∧
    Instr.chainInt.wellFormed State.reset.views = true ∧
    (Instr.resetDart 1).wellFormed State.reset.views = true := by decide

theorem witness_MisaddressedOperationStops :
    (Instr.irqAck 2).operand.inChain State.reset.views = false ∧
    (Instr.irqAck 2).operand.position = some 2 ∧ State.reset.chips.length ≤ 2 ∧
    (Instr.pioPollTick 9).operand.inChain State.reset.views = false ∧
    (Instr.resetPio 1).operand.inChain State.reset.views = false ∧
    (Instr.resetPio 1).operand.position = some 1 ∧ 1 < State.reset.chips.length ∧
    (Instr.dartRxcaW 0).operand.inChain State.reset.views = false ∧
    (Instr.dartRxcaW 0).operand.position = some 0 ∧ 0 < State.reset.chips.length := by decide

theorem witness_EnvironmentInputs :
    (given (.env (.setPins 0 .b 0xFF#8))).hasPio 0 PioChip.atReset ∧
    (given (.env (.setPins 0 .b 0xFF#8))).inputs = .env (.setPins 0 .b 0xFF#8) :: [] ∧
    (given (.env (.setRxd 1 .a false))).hasDart 1 DartChip.atReset ∧
    (given (.env (.setRxd 1 .a false))).inputs = .env (.setRxd 1 .a false) :: [] ∧
    (∃ d, (timed (.rxTimer 0 .b)).hasDart 0 d ∧ DartConfig.rxHz d.cfg .b ≠ 0 ∧
      (timed (.rxTimer 0 .b)).inputs = .env (.rxTimer 0 .b) :: []) ∧
    (∃ d, (timed (.txTimer 0 .b)).hasDart 0 d ∧ DartConfig.txHz d.cfg .b ≠ 0 ∧
      (timed (.txTimer 0 .b)).inputs = .env (.txTimer 0 .b) :: []) :=
  ⟨rfl, rfl, rfl, rfl, ⟨_, rfl, by decide, rfl⟩, ⟨_, rfl, by decide, rfl⟩⟩

/-- For VectorWordLoadsVector, ModeWordsSelectMode, IntControlWordStoresAndReevaluates, ReservedWordsChangeNothing. -/
theorem witness_ControlWords :
    State.reset.hasPio 0 PioChip.atReset ∧ (PioChip.atReset.port .a).cws = .normal ∧
    (PioChip.atReset.port .b).cws = .normal := by decide

theorem witness_DirectionAndMaskBytes :
    (pioWith dir0 msk0).hasPio 0 (pc dir0 msk0) ∧ ((pc dir0 msk0).port .a).cws = .setDir ∧
    ((pc dir0 msk0).port .b).cws = .setMask := by decide

theorem witness_DecodeStateSequence :
    State.reset.hasPio 0 PioChip.atReset ∧
    (∃ t c', exec (.busWrite 0 true (Side.toBit .a) 0xCF#8) State.reset = .next t ∧ t.hasPio 0 c') ∧
    (∃ t c', exec (.busWrite 0 true (Side.toBit .b) 0x17#8) (pioWith q0 dir0) = .next t ∧ t.hasPio 0 c') ∧
    (∃ t c', decodeRequest State.reset.views (.pollTick 0) = .ok (.pioPollTick 0) ∧
      exec (.pioPollTick 0) State.reset = .next t ∧ t.hasPio 0 c') ∧
    (∃ t c', exec (.resetPio 0) (pioWith dir0 msk0) = .next t ∧ t.hasPio 0 c') :=
  ⟨rfl, ⟨_, _, rfl, rfl⟩, ⟨_, _, rfl, rfl⟩, ⟨_, _, rfl, rfl, rfl⟩, ⟨_, _, rfl, rfl⟩⟩

/-- For PioControlReadIsDataRead and the four data paths. -/
theorem witness_DataPaths :
    (pioWith out0 bit0).hasPio 0 (pc out0 bit0) ∧ ((pc out0 bit0).port .a).mode = .output ∧
    ((pc out0 bit0).port .b).mode = .bitctl ∧ (pioWith bid0 q0).hasPio 0 (pc bid0 q0) ∧
    (pc bid0 q0).a.mode = .bidir ∧ ((pc bid0 q0).port .b).mode = .input := by decide

/-- For StrobeOutputMode, StrobeInputMode, StrobeBidirectionalAndBitControl: each mode on each port, the strobe low and
high before the call. -/
theorem witness_Strobes :
    (pioWith { out0 with stb := false } { q0 with stb := false }).hasPio 0
      (pc { out0 with stb := false } { q0 with stb := false }) ∧
    ((pc { out0 with stb := false } { q0 with stb := false }).port .a).mode = .output ∧
    ((pc { out0 with stb := false } { q0 with stb := false }).port .b).mode = .input ∧
    (pc { out0 with stb := false } { q0 with stb := false }).a.mode ≠ .bidir ∧
    (pioWith q0 out0).hasPio 0 (pc q0 out0) ∧ ((pc q0 out0).port .a).mode = .input ∧
    ((pc q0 out0).port .b).mode = .output ∧ (pc q0 out0).a.mode ≠ .bidir ∧
    (pioWith bid0 bit0).hasPio 0 (pc bid0 bit0) ∧ (pc bid0 bit0).a.mode = .bidir ∧
    (pioWith bit0 bit0).hasPio 0 (pc bit0 bit0) ∧ ((pc bit0 bit0).port .a).mode = .bitctl ∧
    ((pc bit0 bit0).port .b).mode = .bitctl ∧ (pc bit0 bit0).a.mode ≠ .bidir := by decide

/-- A port in Bit-Control mode whose pins match, with its interrupts enabled. -/
def match0 : Port := { bit0 with ie := true, icw := 0x97#8, mask := 0xFE#8, pins := 0x00#8 }

/-- For PollTickEvaluatesBothPorts, MatchConditionByLines, RepeatedPollChangesNothing. -/
theorem witness_Polls :
    (pioWith match0 { match0 with icw := 0xF7#8 }).hasPio 0 (pc match0 { match0 with icw := 0xF7#8 }) ∧
    match0.icw.getLsbD 6 = false ∧ (0xF7#8).getLsbD 6 = true ∧
    (∃ t u, exec (.pioPollTick 0) (pioWith match0 q0) = .next t ∧ exec (.pioPollTick 0) t = .next u) :=
  ⟨rfl, rfl, rfl, ⟨_, _, rfl, rfl⟩⟩

/-- For the statements on control writes and reads of a DART: every pointer. -/
theorem witness_Pointers :
    (∀ n ∈ [0#8, 1#8, 2#8, 3#8, 4#8, 5#8, 6#8, 7#8],
      (dartWith (ptr n) (ptr n)).hasDart 1 (dc (ptr n) (ptr n)) ∧
      ((dc (ptr n) (ptr n)).ch .a).ptr = n.extractLsb' 0 3 ∧ ((dc (ptr n) (ptr n)).ch .b).ptr = n.extractLsb' 0 3) ∧
    3 ≤ (ptr 3#8).ptr.toNat ∧ (ptr 2#8).ptr = 2#3 := by decide

theorem witness_PointerAfterControlWrite :
    State.reset.hasDart 1 DartChip.atReset ∧
    (∃ t d', exec (.busWrite 1 true (Side.toBit .b) 0x07#8) State.reset = .next t ∧ t.hasDart 1 d') ∧
    (∃ t d', exec (.busWrite 1 true (Side.toBit .a) 0x07#8) (dartWith (ptr 1#8) c0) = .next t ∧ t.hasDart 1 d') :=
  ⟨rfl, ⟨_, _, rfl, rfl⟩, ⟨_, _, rfl, rfl⟩⟩

theorem witness_VectorAndRegister2 :
    DartChip.atReset.b.wr1.getLsbD 2 = false ∧ (dc c0 { c0 with wr1 := 0x04#8 }).b.wr1.getLsbD 2 = true ∧
    (dartWith c0 (ptr 2#8)).hasDart 1 (dc c0 (ptr 2#8)) ∧ (dc c0 (ptr 2#8)).b.ptr = 2#3 := by decide

/-- For DataWriteLatchesByte, DataReadPopsFifo, ReceiveDataFillsFifo, FifoOrderAndOverrun. -/
theorem witness_Fifos :
    (∀ n ∈ [0, 1, 2, 3], (dartWith (full n) (full n)).hasDart 1 (dc (full n) (full n)) ∧
      ((dc (full n) (full n)).ch .a).fifo.n = n ∧ ((dc (full n) (full n)).ch .b).fifo.n = n) ∧
    State.reset.hasDart 1 DartChip.atReset := by decide

/-- For the first clause of ReceiveDataFillsFifo: an operation in progress at each fill. -/
theorem witness_ReceiveDataFillsFifo :
    ∀ n ∈ [0, 1, 2, 3], ((Act.begin (dc (full n) c0)).chip.ch .a).fifo.n = n := by decide

/-- For ModemLineInputs and ClockPulsesAndDivider. -/
theorem witness_LinesAndClocks : State.reset.hasDart 1 DartChip.atReset := rfl

/-- For ReceiveBitTimes, TransmitStartState, TransmitBitTimes: every framing state of each side. -/
theorem witness_BitTimes :
    ∀ f ∈ [Frame.start, .data, .parity, .stop, .stop2],
      ((Act.begin (dc { c0 with rxState := f } { c0 with txState := f })).chip.ch .a).rxState = f ∧
      ((Act.begin (dc { c0 with rxState := f } { c0 with txState := f })).chip.ch .b).txState = f := by decide

theorem witness_FramedCharacterIsReceived :
    ((dc { c0 with wr3 := 0x01#8 } c0).ch .a).rxState = .start ∧ ((dc { c0 with wr3 := 0x01#8 } c0).ch .a).wr3.getLsbD 0 = true := by
  decide

theorem witness_TransmitterSendsFrame :
    ((dc c0 { c0 with wr5 := 0x08#8, rr0 := 0x00#8, rr1 := 0x00#8 }).ch .b).txState = .start ∧
    ((dc c0 { c0 with wr5 := 0x08#8, rr0 := 0x00#8, rr1 := 0x00#8 }).ch .b).wr5.getLsbD 3 = true ∧
    ((dc c0 { c0 with wr5 := 0x08#8, rr0 := 0x00#8, rr1 := 0x00#8 }).ch .b).rr0.getLsbD 2 = false ∧
    ((dc c0 { c0 with wr5 := 0x08#8, rr0 := 0x00#8, rr1 := 0x00#8 }).ch .b).wr5.getLsbD 1 = false := by decide

/-- For ArbiterPromotesOneSource: both enables each way, a pending and an idle source. -/
theorem witness_ArbiterPromotesOneSource :
    (pc { q0 with ie := true, src := ipSrc } { q0 with ie := true, src := ipSrc }).a.ie = true ∧
    (pc { q0 with ie := true, src := ipSrc } { q0 with ie := true, src := ipSrc }).a.src.ip = true ∧
    PioChip.atReset.b.ie = false ∧ PioChip.atReset.a.src.ip = false ∧
    ({ c0 with wr1 := 0x01#8, src := ipSrc } : Channel).wr1 &&& 0x1B#8 ≠ 0#8 := by decide

theorem witness_IrqStateScan :
    (chainWith ieoSrc intSrc).chips[0]? = some (.pio (pc { q0 with ie := true, vector := 0x20#8, src := ieoSrc } q0)) ∧
    (Chip.pio (pc { q0 with ie := true, vector := 0x20#8, src := ieoSrc } q0)).sources.1.ieo = true ∧
    (Chip.pio (pc q0 { q0 with src := ieoSrc })).sources.2.ieo = true ∧
    (Chip.pio (pc q0 { q0 with src := ieoSrc })).sources.1.int = false := by decide

/-- For AcknowledgeTakesFirstRequest, ReturnReleasesFirstService, ReturnFromInterruptCommand, ChipResetSetsFields. -/
theorem witness_SourcesOfEachKind :
    (pioWith { q0 with src := intSrc } { q0 with src := ieoSrc }).hasPio 0
      (pc { q0 with src := intSrc } { q0 with src := ieoSrc }) ∧
    (dartWith { c0 with src := ieoSrc } { c0 with src := intSrc }).hasDart 1
      (dc { c0 with src := ieoSrc } { c0 with src := intSrc }) ∧
    ((dc { c0 with src := ieoSrc } { c0 with src := intSrc }).ch .b).ptr = 0#3 := by decide

/-- For ChainAcknowledgeAndReturn: a requester by either source, none, a served chip, none. -/
theorem witness_ChainAcknowledgeAndReturn :
    (chainWith Source.idle intSrc).requester = some 1 ∧
    (∃ c, (chainWith Source.idle intSrc).chips[1]? = some c ∧ c.sources.1.int = true) ∧
    (pioWith q0 { q0 with src := intSrc }).requester = some 0 ∧
    (∃ c, (pioWith q0 { q0 with src := intSrc }).chips[0]? = some c ∧ c.sources.1.int = false) ∧
    State.reset.requester = none ∧
    (∃ c, (chainWith Source.idle ieoSrc).chips[1]? = some c ∧ c.irqState.ieo = true) ∧
    (∀ j < 1, ∀ c, (chainWith Source.idle ieoSrc).chips[j]? = some c → c.irqState.ieo = false) ∧
    (∀ c ∈ State.reset.chips, c.irqState.ieo = false) := by
  refine ⟨rfl, ⟨_, rfl, rfl⟩, rfl, ⟨_, rfl, rfl⟩, rfl, ⟨_, rfl, rfl⟩, ?_, by decide⟩
  intro j hj c h
  obtain rfl : j = 0 := by omega
  obtain rfl := Option.some.inj h
  rfl

theorem witness_ServiceFlagsMoveOnlyByContract :
    (∃ t, exec (.pioPollTick 0) (chainWith ieoSrc ieoSrc) = .next t) ∧ acknowledges (.pioPollTick 0) = false ∧
    releases (.pioPollTick 0) = false ∧ (Instr.pioPollTick 0).selectedIn (chainWith ieoSrc ieoSrc).views = true :=
  ⟨⟨_, rfl⟩, rfl, rfl, rfl⟩

theorem witness_StepKeepsWellBehaved :
    (given (.agent (.receiveData 1 .a 0x55#8))).wellBehaved = true ∧
    (∃ t, step (given (.agent (.receiveData 1 .a 0x55#8))) = .next t) ∧
    (given (.env (.setRxd 1 .a false))).wellBehaved = true ∧
    (∃ t, step (given (.env (.setRxd 1 .a false))) = .next t) :=
  ⟨by decide, ⟨_, rfl⟩, by decide, ⟨_, rfl⟩⟩

theorem witness_ChipsOwnTheirState :
    (∃ t, exec (.resetPio 0) State.reset = .next t) ∧ (∃ t, exec (.dartRxcaW 1) State.reset = .next t) ∧
    (∃ t, exec (.irqReti 1) State.reset = .next t) ∧
    (∃ t, exec .chainAck (chainWith intSrc Source.idle) = .next t) ∧
    (chainWith intSrc Source.idle).requester ≠ some 1 ∧
    (∃ t, exec .chainReti (chainWith ieoSrc Source.idle) = .next t) ∧
    (chainWith ieoSrc Source.idle).served ≠ some 1 ∧
    (∃ t, step (given (.agent (.pollTick 0))) = .next t) :=
  ⟨⟨_, rfl⟩, ⟨_, rfl⟩, ⟨_, rfl⟩, ⟨_, rfl⟩, by decide, ⟨_, rfl⟩, by decide, ⟨_, rfl⟩⟩

end Sys2Proof.Tests
end

section
/-! PIO control register: the whole next state of the vector word, the direction byte and the mask byte (R152, R160,
R161). -/

namespace Sys2Proof.Machine

/-! What each rule does to an operation in progress: the port it changes; events and result stay. -/

/-- The byte's bit 0 is already 0, so forcing it to 0 (R152) keeps the byte. -/
@[simp] theorem vectorByte_and_fe (v : BitVec 7) : vectorByte v &&& 0xFE#8 = v ++ 0#1 := by
  revert v; decide

@[simp] theorem vectorWord_chip (p : Side) (v : Byte) (x : Act PioChip) :
    (vectorWord p v x).chip = x.chip.withPort p fun q => { q with vector := v &&& 0xFE#8 } := rfl
@[simp] theorem vectorWord_out (p : Side) (v : Byte) (x : Act PioChip) : (vectorWord p v x).out = x.out := rfl
@[simp] theorem vectorWord_reply (p : Side) (v : Byte) (x : Act PioChip) : (vectorWord p v x).reply = x.reply := rfl

@[simp] theorem directionByte_chip (p : Side) (v : Byte) (x : Act PioChip) :
    (directionByte p v x).chip =
      x.chip.withPort p fun q => { q with ior := v, matched := false, cws := .normal } := rfl
@[simp] theorem directionByte_out (p : Side) (v : Byte) (x : Act PioChip) : (directionByte p v x).out = x.out := rfl
@[simp] theorem directionByte_reply (p : Side) (v : Byte) (x : Act PioChip) :
    (directionByte p v x).reply = x.reply := rfl

@[simp] theorem maskByte_chip (p : Side) (v : Byte) (x : Act PioChip) :
    (maskByte p v x).chip =
      (x.chip.withPort p fun q =>
        { q with mask := v, matched := false, ie := q.icw.getLsbD 7, cws := .normal }).checkInterrupt := rfl
@[simp] theorem maskByte_out (p : Side) (v : Byte) (x : Act PioChip) : (maskByte p v x).out = x.out := rfl
@[simp] theorem maskByte_reply (p : Side) (v : Byte) (x : Act PioChip) : (maskByte p v x).reply = x.reply := rfl

/-! A byte written to a control register. -/

/-- In the decode state that selects the form, the next state is the one the form's own rule leaves (R150). -/
theorem pioControlForm_selected {s : State} {k : Nat} {c : PioChip} {p : Side} {w : Cws} (hc : s.hasPio k c)
    (hw : (c.port p).cws = w) (v : Byte) {own : Act PioChip → Act PioChip}
    (hr : (own (Act.begin c)).reply = .none) :
    pioControlForm k p w v s own =
      .next (s.afterPio k (own (Act.begin c)).chip (own (Act.begin c)).out .none) := by
  have hcommit : s.commit k ((own (Act.begin c)).lift .pio) =
      s.afterPio k (own (Act.begin c)).chip (own (Act.begin c)).out .none := by
    rw [commit_pio s k _ (by simp [hr]), hr]
    rfl
  rw [pioControlForm, onPio_of_hasPio hc, if_pos hw, hcommit]

theorem exec_pioVectorWord (k : Nat) (p : Side) (v : BitVec 7) (s : State) :
    exec (.pioVectorWord k p v) s = pioControlForm k p .normal (vectorByte v) s (vectorWord p (vectorByte v)) := rfl

theorem exec_pioDirectionByte (k : Nat) (p : Side) (v : Byte) (s : State) :
    exec (.pioDirectionByte k p v) s = pioControlForm k p .setDir v s (directionByte p v) := rfl

theorem exec_pioMaskByte (k : Nat) (p : Side) (v : Byte) (s : State) :
    exec (.pioMaskByte k p v) s = pioControlForm k p .setMask v s (maskByte p v) := rfl

/-! The obligations. -/

/-- Settles O12: NORMAL selects the vector word, and its byte already has bit 0 at 0. -/
theorem vectorWordLoadsVector : Obligations.VectorWordLoadsVector := by
  intro s k c p v hc hw
  rw [exec_pioVectorWord, pioControlForm_selected hc hw _ (vectorWord_reply ..), vectorWord_chip, vectorWord_out,
    vectorByte_and_fe, Act.begin_chip, Act.begin_out]

/-- Settles O16: the decode state selects the direction byte or the mask byte. -/
theorem directionAndMaskBytes : Obligations.DirectionAndMaskBytes := by
  intro s k c p v hc
  constructor
  · intro hw
    rw [exec_pioDirectionByte, pioControlForm_selected hc hw _ (directionByte_reply ..), directionByte_chip,
      directionByte_out, Act.begin_chip, Act.begin_out]
  · intro hw
    rw [exec_pioMaskByte, pioControlForm_selected hc hw _ (maskByte_reply ..), maskByte_chip, maskByte_out,
      Act.begin_chip, Act.begin_out]

end Sys2Proof.Machine
end

section
/-! PIO data register: the whole next state of a write and of a read in the Output, Input and Bit-Control modes (R171,
R172, R174, R176, R177, R179). -/

namespace Sys2Proof.Machine

/-! Output lines and results. -/

@[simp] theorem Act.ready_chip (x : Act PioChip) (p : Side) (l : Level) :
    (x.ready p l).chip = x.chip.setPort p { x.chip.port p with rdy := l } := rfl
@[simp] theorem Act.ready_out (x : Act PioChip) (p : Side) (l : Level) : (x.ready p l).out = x.out ++ [.ready p l] :=
  rfl
@[simp] theorem Act.ready_reply (x : Act PioChip) (p : Side) (l : Level) : (x.ready p l).reply = x.reply := rfl
@[simp] theorem Act.portWrite_chip (x : Act PioChip) (p : Side) (v : Byte) : (x.portWrite p v).chip = x.chip := rfl
@[simp] theorem Act.portWrite_out (x : Act PioChip) (p : Side) (v : Byte) :
    (x.portWrite p v).out = x.out ++ [.portWrite p v] := rfl
@[simp] theorem Act.portWrite_reply (x : Act PioChip) (p : Side) (v : Byte) : (x.portWrite p v).reply = x.reply := rfl

@[simp] theorem Reply.toAnswer_none (n : Nat) : Reply.none.toAnswer n = .none := rfl
@[simp] theorem Reply.toAnswer_byte (v : Byte) (n : Nat) : (Reply.byte v).toAnswer n = .byte v := rfl

/-- An operation that leaves the chip as it was and drives nothing changes only the result. -/
theorem State.afterPio_unchanged {s : State} {k : Nat} {c : PioChip} (hc : s.hasPio k c) (ans : Answer) :
    s.afterPio k c [] ans = { s with answer := ans } := by
  rw [State.afterPio, set_of_get hc, List.map_nil, List.append_nil]

/-! What each rule does to an operation in progress. The latch and the last ready level are one change of the port: the
ready line that drops first is raised before the operation ends. -/

@[simp] theorem dataWriteOut_chip (p : Side) (v : Byte) (x : Act PioChip) :
    (dataWriteOut p v x).chip = x.chip.withPort p fun q => { q with outLatch := v, rdy := true } := by
  simp [dataWriteOut]
@[simp] theorem dataWriteOut_out (p : Side) (v : Byte) (x : Act PioChip) :
    (dataWriteOut p v x).out = x.out ++ [.ready p false, .portWrite p v, .ready p true] := by
  simp [dataWriteOut]
@[simp] theorem dataWriteOut_reply (p : Side) (v : Byte) (x : Act PioChip) : (dataWriteOut p v x).reply = x.reply := rfl

@[simp] theorem dataWriteIn_eq (x : Act PioChip) : dataWriteIn x = x := rfl

@[simp] theorem dataWriteBitctl_chip (p : Side) (v : Byte) (x : Act PioChip) :
    (dataWriteBitctl p v x).chip = x.chip.withPort p fun q => { q with outLatch := v } := rfl
/-- The direction mask is the one that stood before the write: latching the byte does not move it. -/
@[simp] theorem dataWriteBitctl_out (p : Side) (v : Byte) (x : Act PioChip) :
    (dataWriteBitctl p v x).out = x.out ++ [.portWrite p (v &&& ~~~(x.chip.port p).ior)] := by
  simp [dataWriteBitctl]
@[simp] theorem dataWriteBitctl_reply (p : Side) (v : Byte) (x : Act PioChip) :
    (dataWriteBitctl p v x).reply = x.reply := rfl

@[simp] theorem dataReadOut_chip (p : Side) (x : Act PioChip) : (dataReadOut p x).chip = x.chip := rfl
@[simp] theorem dataReadOut_out (p : Side) (x : Act PioChip) : (dataReadOut p x).out = x.out := rfl
@[simp] theorem dataReadOut_reply (p : Side) (x : Act PioChip) :
    (dataReadOut p x).reply = .byte (x.chip.port p).outLatch := rfl

@[simp] theorem dataReadIn_chip (p : Side) (x : Act PioChip) :
    (dataReadIn p x).chip = x.chip.withPort p fun q => { q with rdy := true } := by
  simp [dataReadIn]
@[simp] theorem dataReadIn_out (p : Side) (x : Act PioChip) :
    (dataReadIn p x).out = x.out ++ [.ready p false, .ready p true] := by
  simp [dataReadIn]
@[simp] theorem dataReadIn_reply (p : Side) (x : Act PioChip) :
    (dataReadIn p x).reply = .byte (x.chip.port p).inLatch := rfl

@[simp] theorem dataReadBitctl_chip (p : Side) (x : Act PioChip) : (dataReadBitctl p x).chip = x.chip := rfl
@[simp] theorem dataReadBitctl_out (p : Side) (x : Act PioChip) : (dataReadBitctl p x).out = x.out := rfl
@[simp] theorem dataReadBitctl_reply (p : Side) (x : Act PioChip) :
    (dataReadBitctl p x).reply = .byte (x.chip.port p).seen := rfl

/-! An access to a data register. -/

/-- An operation on a PIO that returns no free byte: the next state written out. -/
theorem onPio_afterPio {s : State} {k : Nat} {c : PioChip} (hc : s.hasPio k c) {f : PioChip → Act PioChip}
    {y : Act PioChip} (hf : f c = y) (hr : y.reply ≠ .anyByte) :
    onPio k s f = .next (s.afterPio k y.chip y.out (y.reply.toAnswer 0)) := by
  rw [onPio_of_hasPio hc, hf, commit_pio s k y hr]

/-- In the mode that selects the form, a write is the form's own rule (R170). -/
theorem pioDataWriteForm_selected {s : State} {k : Nat} {c : PioChip} {p : Side} {m : Mode} (hc : s.hasPio k c)
    (hm : (c.port p).mode = m) (v : Byte) {own : Act PioChip → Act PioChip}
    (hr : (own (Act.begin c)).reply = .none) :
    pioDataWriteForm k p m v s own = .next (s.afterPio k (own (Act.begin c)).chip (own (Act.begin c)).out .none) := by
  rw [pioDataWriteForm, onPio_afterPio hc (if_pos hm) (by simp [hr]), hr, Reply.toAnswer_none]

/-- In the mode that selects the form, a read is the form's own rule, and its byte is the result (R175). -/
theorem pioDataReadForm_selected {s : State} {k : Nat} {c : PioChip} {p : Side} {m : Mode} (hc : s.hasPio k c)
    (hm : (c.port p).mode = m) {own : Act PioChip → Act PioChip} {v : Byte}
    (hr : (own (Act.begin c)).reply = .byte v) :
    pioDataReadForm k p m s own =
      .next (s.afterPio k (own (Act.begin c)).chip (own (Act.begin c)).out (.byte v)) := by
  rw [pioDataReadForm, onPio_afterPio hc (if_pos hm) (by simp [hr]), hr, Reply.toAnswer_byte]

theorem exec_pioDataWriteOut (k : Nat) (p : Side) (v : Byte) (s : State) :
    exec (.pioDataWriteOut k p v) s = pioDataWriteForm k p .output v s (dataWriteOut p v) := rfl

theorem exec_pioDataReadOut (k : Nat) (p : Side) (s : State) :
    exec (.pioDataReadOut k p) s = pioDataReadForm k p .output s (dataReadOut p) := rfl

theorem exec_pioDataWriteIn (k : Nat) (p : Side) (v : Byte) (s : State) :
    exec (.pioDataWriteIn k p v) s = pioDataWriteForm k p .input v s dataWriteIn := rfl

theorem exec_pioDataReadIn (k : Nat) (p : Side) (s : State) :
    exec (.pioDataReadIn k p) s = pioDataReadForm k p .input s (dataReadIn p) := rfl

theorem exec_pioDataWriteBitctl (k : Nat) (p : Side) (v : Byte) (s : State) :
    exec (.pioDataWriteBitctl k p v) s = pioDataWriteForm k p .bitctl v s (dataWriteBitctl p v) := rfl

theorem exec_pioDataReadBitctl (k : Nat) (p : Side) (s : State) :
    exec (.pioDataReadBitctl k p) s = pioDataReadForm k p .bitctl s (dataReadBitctl p) := rfl

/-! The obligations. -/

/-- Settles O19: Output mode selects R171 for the write and R176 for the read. -/
theorem outputModeDataPath : Obligations.OutputModeDataPath := by
  intro s k c p v hc hm
  constructor
  · rw [exec_pioDataWriteOut, pioDataWriteForm_selected hc hm v (dataWriteOut_reply ..), dataWriteOut_chip,
      dataWriteOut_out, Act.begin_chip, Act.begin_out, List.nil_append]
  · rw [exec_pioDataReadOut, pioDataReadForm_selected hc hm (dataReadOut_reply ..), dataReadOut_chip, dataReadOut_out,
      Act.begin_chip, Act.begin_out]

/-- Settles O20: Input mode selects R172 for the write, which leaves the chip as it was, and R177 for the read. -/
theorem inputModeDataPath : Obligations.InputModeDataPath := by
  intro s k c p v hc hm
  constructor
  · rw [exec_pioDataWriteIn, pioDataWriteForm_selected hc hm v (Act.begin_reply c), dataWriteIn_eq, Act.begin_chip,
      Act.begin_out, State.afterPio_unchanged hc]
  · rw [exec_pioDataReadIn, pioDataReadForm_selected hc hm (dataReadIn_reply ..), dataReadIn_chip, dataReadIn_out,
      Act.begin_chip, Act.begin_out, List.nil_append]

/-- Settles O22: Bit-Control mode selects R174 for the write and R179 for the read. -/
theorem bitControlDataPath : Obligations.BitControlDataPath := by
  intro s k c p v hc hm
  constructor
  · rw [exec_pioDataWriteBitctl, pioDataWriteForm_selected hc hm v (dataWriteBitctl_reply ..), dataWriteBitctl_chip,
      dataWriteBitctl_out, Act.begin_chip, Act.begin_out, List.nil_append]
  · rw [exec_pioDataReadBitctl, pioDataReadForm_selected hc hm (dataReadBitctl_reply ..), dataReadBitctl_chip,
      dataReadBitctl_out, Act.begin_chip, Act.begin_out, Port.seen]

end Sys2Proof.Machine
end

section
/-! Every well-formed instruction completes (R340): an instruction acts on the chip its operand names, and on nothing that
could stop it. -/

namespace Sys2Proof.Machine

/-! The chip an operand names. -/

@[simp] theorem State.views_getElem? (s : State) (k : Nat) : s.views[k]? = s.chips[k]?.map Chip.view := by
  simp [State.views]

theorem inChain_anyChip {s : State} {k : Nat} :
    (Operand.anyChip k).inChain s.views = true ↔ ∃ c, s.chips[k]? = some c := by
  simp [Operand.inChain, Option.isSome_iff_exists]

/-- A PIO's view is a PIO's, so the views name a PIO exactly where the chain holds one. -/
theorem inChain_pioChip {s : State} {k : Nat} : (Operand.pioChip k).inChain s.views = true ↔ ∃ c, s.hasPio k c := by
  rw [Operand.inChain, State.views_getElem?]
  cases h : s.chips[k]? with
  | none => simp [h]
  | some c => cases c <;> simp [h, State.hasPio, Chip.view]

/-- The same for a DART. -/
theorem inChain_dartChip {s : State} {k : Nat} : (Operand.dartChip k).inChain s.views = true ↔ ∃ d, s.hasDart k d := by
  rw [Operand.inChain, State.views_getElem?]
  cases h : s.chips[k]? with
  | none => simp [h]
  | some c => cases c <;> simp [h, State.hasDart, Chip.view]

/-! The walks of the chain end at a chip of the chain, so what they notify is there. -/

theorem chip_of_requester {s : State} {k : Nat} (h : s.requester = some k) : ∃ c, s.chips[k]? = some c := by
  obtain ⟨-, ⟨c, hc, -⟩, -⟩ := requesterFrom_some.mp h
  exact ⟨c, hc⟩

theorem chip_of_served {s : State} {k : Nat} (h : s.served = some k) : ∃ c, s.chips[k]? = some c := by
  obtain ⟨-, ⟨c, hc, -⟩, -⟩ := servedFrom_some.mp h
  exact ⟨c, hc⟩

theorem execChainAck_completes (s : State) : ∃ t, execChainAck s = .next t := by
  unfold execChainAck
  split
  · rename_i k hk
    obtain ⟨c, hc⟩ := chip_of_requester hk
    exact ⟨_, onChip_of_get hc _⟩
  · exact ⟨_, rfl⟩

theorem execChainReti_completes (s : State) : ∃ t, execChainReti s = .next t := by
  unfold execChainReti
  split
  · rename_i k hk
    obtain ⟨c, hc⟩ := chip_of_served hk
    exact ⟨_, onChip_of_get hc _⟩
  · exact ⟨_, rfl⟩

/-! What an instruction does, by its operand. -/

/-- The outcome `out` in state `s` is an operation on what the operand names: on the chip at its position, of its kind; an
operation of the chain has a next state. -/
def ActsIn (s : State) (out : Out) : Operand → Prop
  | .anyChip k => ∃ f, out = onChip k s f
  | .pioChip k => ∃ f, out = onPio k s f
  | .dartChip k => ∃ f, out = onDart k s f
  | .wholeChain => ∃ t, out = .next t

/-- Every meaning is an operation on the chip its row names; only the chain operations look for their chip. -/
theorem exec_actsIn (i : Instr) (s : State) : ActsIn s (exec i s) i.operand := by
  cases i with
  | chainInt => exact ⟨_, rfl⟩
  | chainAck => exact execChainAck_completes s
  | chainReti => exact execChainReti_completes s
  | _ => exact ⟨_, rfl⟩

/-- An operation on a chip that is there, of the right kind, has a next state. -/
theorem ActsIn.completes {s : State} {out : Out} {o : Operand} (h : ActsIn s out o)
    (ho : o.inChain s.views = true) : ∃ t, out = .next t := by
  cases o with
  | anyChip k =>
    obtain ⟨f, rfl⟩ := h
    obtain ⟨c, hc⟩ := inChain_anyChip.mp ho
    exact ⟨_, onChip_of_get hc f⟩
  | pioChip k =>
    obtain ⟨f, rfl⟩ := h
    obtain ⟨c, hc⟩ := inChain_pioChip.mp ho
    exact ⟨_, onPio_of_hasPio hc f⟩
  | dartChip k =>
    obtain ⟨f, rfl⟩ := h
    obtain ⟨d, hd⟩ := inChain_dartChip.mp ho
    exact ⟨_, onDart_of_hasDart hd f⟩
  | wholeChain => exact h

theorem operand_inChain_of_wellFormed {vs : List ChipView} {i : Instr} (h : i.wellFormed vs = true) :
    i.operand.inChain vs = true := by
  rw [Instr.wellFormed, Bool.and_eq_true] at h
  obtain ⟨hchain, -⟩ := h
  exact hchain

/-! The obligation. -/

/-- Settles O9: the meaning is an operation on the operand's chip, and a well-formed instruction's chip is there. -/
theorem everyOperationCompletes : Obligations.EveryOperationCompletes := by
  intro s i hi
  exact (exec_actsIn i s).completes (operand_inChain_of_wellFormed hi)

end Sys2Proof.Machine
end

section
/-! Encoding and decoding (R110, R111, R42): the bytes of each format take apart into their fields and back, which row
each kind of access decodes to, and from the two the round trips between an instruction and what it is issued as. -/

-- One proof at a time: the check then needs fewer threads, each of which takes part of its memory.
set_option Elab.async false

namespace Sys2Proof

/-! Fields of the byte formats. -/

@[simp] theorem modeByte_low (m x : BitVec 2) : (modeByte m x).extractLsb' 0 4 = 0xF#4 := by revert m x; decide
@[simp] theorem modeByte_mode (m x : BitVec 2) : (modeByte m x).extractLsb' 6 2 = m := by revert m x; decide
@[simp] theorem modeByte_free (m x : BitVec 2) : (modeByte m x).extractLsb' 4 2 = x := by revert m x; decide

@[simp] theorem reservedByte_low (x n : BitVec 4) : (reservedByte x n).extractLsb' 0 4 = n := by revert x n; decide
@[simp] theorem reservedByte_high (x n : BitVec 4) : (reservedByte x n).extractLsb' 4 4 = x := by revert x n; decide

@[simp] theorem icwByte_low (ei ao hl mf : Bool) : (icwByte ei ao hl mf).extractLsb' 0 4 = 0x7#4 := by
  revert ei ao hl mf; decide
theorem icwByte_bit7 (ei ao hl mf : Bool) : (icwByte ei ao hl mf).getLsbD 7 = ei := by
  revert ei ao hl mf; decide
theorem icwByte_bit6 (ei ao hl mf : Bool) : (icwByte ei ao hl mf).getLsbD 6 = ao := by
  revert ei ao hl mf; decide
theorem icwByte_bit5 (ei ao hl mf : Bool) : (icwByte ei ao hl mf).getLsbD 5 = hl := by
  revert ei ao hl mf; decide
theorem icwByte_bit4 (ei ao hl mf : Bool) : (icwByte ei ao hl mf).getLsbD 4 = mf := by
  revert ei ao hl mf; decide

@[simp] theorem vectorByte_field (v : BitVec 7) : (vectorByte v).extractLsb' 1 7 = v := by revert v; decide
theorem vectorByte_bit0 (v : BitVec 7) : (vectorByte v).getLsbD 0 = false := by revert v; decide

@[simp] theorem wr0Byte_free (x : BitVec 2) (m n : BitVec 3) : (wr0Byte x m n).extractLsb' 6 2 = x := by
  revert x m n; decide
@[simp] theorem wr0Byte_cmd (x : BitVec 2) (m n : BitVec 3) : (wr0Byte x m n).extractLsb' 3 3 = m := by
  revert x m n; decide
@[simp] theorem wr0Byte_ptr (x : BitVec 2) (m n : BitVec 3) : (wr0Byte x m n).extractLsb' 0 3 = n := by
  revert x m n; decide

/-! Every control byte is the byte of its fields. -/

theorem reservedByte_fields (b : Byte) : reservedByte (b.extractLsb' 4 4) (b.extractLsb' 0 4) = b := by
  revert b; decide

theorem modeByte_fields (b : Byte) (h : b.extractLsb' 0 4 = 0xF#4) :
    modeByte (b.extractLsb' 6 2) (b.extractLsb' 4 2) = b := by
  revert b; decide

theorem icwByte_fields (b : Byte) (h : b.extractLsb' 0 4 = 0x7#4) :
    icwByte (b.getLsbD 7) (b.getLsbD 6) (b.getLsbD 5) (b.getLsbD 4) = b := by
  revert b; decide

/-- The low nibble carries bit 0. -/
theorem bit0_low (b : Byte) : (b.extractLsb' 0 4).getLsbD 0 = b.getLsbD 0 := by simp

/-- The low nibbles of R120: eight odd ones with a form each, and the even ones of the vector word. -/
theorem low_cases (n : BitVec 4) :
    n = 0xF#4 ∨ n = 0x7#4 ∨ n = 0x1#4 ∨ n = 0x3#4 ∨ n = 0x5#4 ∨ n = 0x9#4 ∨ n = 0xB#4 ∨ n = 0xD#4 ∨
      n.getLsbD 0 = false := by
  revert n; decide

theorem modeField_cases (m : BitVec 2) : m = 0b00#2 ∨ m = 0b01#2 ∨ m = 0b10#2 ∨ m = 0b11#2 := by revert m; decide

/-- The eight values of a pointer or of a command field. -/
theorem pointer_cases (n : BitVec 3) :
    n = 0#3 ∨ n = 1#3 ∨ n = 2#3 ∨ n = 3#3 ∨ n = 4#3 ∨ n = 5#3 ∨ n = 6#3 ∨ n = 7#3 := by
  revert n; decide

theorem vectorByte_fields (b : Byte) (h : b.getLsbD 0 = false) : vectorByte (b.extractLsb' 1 7) = b := by
  revert b; decide

theorem wr0Byte_fields (b : Byte) : wr0Byte (b.extractLsb' 6 2) (b.extractLsb' 3 3) (b.extractLsb' 0 3) = b := by
  revert b; decide

theorem busByte_fields (b : Byte) :
    b.extractLsb' 2 6 ++ BitVec.ofBool (b.getLsbD 1) ++ BitVec.ofBool (b.getLsbD 0) = b := by
  revert b; decide

/-- The pointers that select no register of either channel (R230). -/
theorem reservedPointer_cases {n : BitVec 3} (h : 3 ≤ n.toNat) :
    n = 3#3 ∨ n = 4#3 ∨ n = 5#3 ∨ n = 6#3 ∨ n = 7#3 := by
  revert n; decide

/-! Which row a byte is (R120, R122). -/

section
variable (k : Nat) (p : Side)

/-- The row of a mode word, by its mode field (R114). -/
def modeRow (m x : BitVec 2) : Instr :=
  match m with
  | 0b00#2 => .pioModeOutput k p x
  | 0b01#2 => .pioModeInput k p x
  | 0b10#2 => .pioModeBidir k p x
  | _ => .pioModeBitctl k p x

theorem decodeModeWord_eq (b : Byte) :
    decodeModeWord k p b = modeRow k p (b.extractLsb' 6 2) (b.extractLsb' 4 2) := rfl

/-- The row of a control byte in NORMAL, by its low nibble (R120). -/
def controlRow (b : Byte) (low : BitVec 4) : Instr :=
  match low with
  | 0xF#4 => decodeModeWord k p b
  | 0x7#4 => .pioIntControlWord k p (b.getLsbD 7) (b.getLsbD 6) (b.getLsbD 5) (b.getLsbD 4)
  | 0x1#4 => .pioReserved1 k p (b.extractLsb' 4 4)
  | 0x3#4 => .pioReserved3 k p (b.extractLsb' 4 4)
  | 0x5#4 => .pioReserved5 k p (b.extractLsb' 4 4)
  | 0x9#4 => .pioReserved9 k p (b.extractLsb' 4 4)
  | 0xB#4 => .pioReservedB k p (b.extractLsb' 4 4)
  | 0xD#4 => .pioReservedD k p (b.extractLsb' 4 4)
  | _ => .pioVectorWord k p (b.extractLsb' 1 7)

theorem decodePioControl_normal (b : Byte) :
    decodePioControl k p .normal b = controlRow k p b (b.extractLsb' 0 4) := rfl

/-- An even control byte is a vector word: the low nibbles of all other forms are odd. -/
theorem controlRow_even (b : Byte) {low : BitVec 4} (h : low.getLsbD 0 = false) :
    controlRow k p b low = .pioVectorWord k p (b.extractLsb' 1 7) := by
  have heven : ∀ n : BitVec 4, n.getLsbD 0 = false →
      n = 0x0#4 ∨ n = 0x2#4 ∨ n = 0x4#4 ∨ n = 0x6#4 ∨ n = 0x8#4 ∨ n = 0xA#4 ∨ n = 0xC#4 ∨ n = 0xE#4 := by decide
  rcases heven low h with rfl | rfl | rfl | rfl | rfl | rfl | rfl | rfl <;> rfl

@[simp] theorem decodePioControl_vectorByte (v : BitVec 7) :
    decodePioControl k p .normal (vectorByte v) = .pioVectorWord k p v := by
  have hlow : ((vectorByte v).extractLsb' 0 4).getLsbD 0 = false := by rw [bit0_low, vectorByte_bit0]
  rw [decodePioControl_normal, controlRow_even k p _ hlow, vectorByte_field]

@[simp] theorem decodePioControl_modeByte (m x : BitVec 2) :
    decodePioControl k p .normal (modeByte m x) = modeRow k p m x := by
  rw [decodePioControl_normal, modeByte_low]
  refine (decodeModeWord_eq k p _).trans ?_
  rw [modeByte_mode, modeByte_free]

@[simp] theorem decodePioControl_icwByte (ei ao hl mf : Bool) :
    decodePioControl k p .normal (icwByte ei ao hl mf) = .pioIntControlWord k p ei ao hl mf := by
  rw [decodePioControl_normal, icwByte_low, controlRow, icwByte_bit7, icwByte_bit6, icwByte_bit5, icwByte_bit4]

theorem decodePioControl_reservedByte (x n : BitVec 4) :
    decodePioControl k p .normal (reservedByte x n) = controlRow k p (reservedByte x n) n := by
  rw [decodePioControl_normal, reservedByte_low]

@[simp] theorem decodePioControl_reserved1 (x : BitVec 4) :
    decodePioControl k p .normal (reservedByte x 0x1#4) = .pioReserved1 k p x :=
  (decodePioControl_reservedByte k p x _).trans (congrArg (Instr.pioReserved1 k p) (reservedByte_high x _))
@[simp] theorem decodePioControl_reserved3 (x : BitVec 4) :
    decodePioControl k p .normal (reservedByte x 0x3#4) = .pioReserved3 k p x :=
  (decodePioControl_reservedByte k p x _).trans (congrArg (Instr.pioReserved3 k p) (reservedByte_high x _))
@[simp] theorem decodePioControl_reserved5 (x : BitVec 4) :
    decodePioControl k p .normal (reservedByte x 0x5#4) = .pioReserved5 k p x :=
  (decodePioControl_reservedByte k p x _).trans (congrArg (Instr.pioReserved5 k p) (reservedByte_high x _))
@[simp] theorem decodePioControl_reserved9 (x : BitVec 4) :
    decodePioControl k p .normal (reservedByte x 0x9#4) = .pioReserved9 k p x :=
  (decodePioControl_reservedByte k p x _).trans (congrArg (Instr.pioReserved9 k p) (reservedByte_high x _))
@[simp] theorem decodePioControl_reservedB (x : BitVec 4) :
    decodePioControl k p .normal (reservedByte x 0xB#4) = .pioReservedB k p x :=
  (decodePioControl_reservedByte k p x _).trans (congrArg (Instr.pioReservedB k p) (reservedByte_high x _))
@[simp] theorem decodePioControl_reservedD (x : BitVec 4) :
    decodePioControl k p .normal (reservedByte x 0xD#4) = .pioReservedD k p x :=
  (decodePioControl_reservedByte k p x _).trans (congrArg (Instr.pioReservedD k p) (reservedByte_high x _))

/-- The row of a WR0 byte, by its command field (R122). -/
def wr0Row (cmd : BitVec 3) (x : BitVec 2) (n : BitVec 3) : Instr :=
  match cmd with
  | 0#3 => .dartWr0Null k p x n
  | 1#3 => .dartWr0Cmd1 k p x n
  | 2#3 => .dartWr0ResetExtStatus k p x n
  | 3#3 => .dartWr0ChannelReset k p x n
  | 4#3 => .dartWr0EnableIntNextRx k p x n
  | 5#3 => .dartWr0Cmd5 k p x n
  | 6#3 => .dartWr0ErrorReset k p x n
  | _ => .dartWr0ReturnFromInt k p x n

theorem decodeDartControl_wr0 (b : Byte) :
    decodeDartControl k p 0#3 b = wr0Row k p (b.extractLsb' 3 3) (b.extractLsb' 6 2) (b.extractLsb' 0 3) := rfl

@[simp] theorem decodeDartControl_wr0Byte (x : BitVec 2) (m n : BitVec 3) :
    decodeDartControl k p 0#3 (wr0Byte x m n) = wr0Row k p m x n := by
  rw [decodeDartControl_wr0, wr0Byte_cmd, wr0Byte_free, wr0Byte_ptr]

/-- The pointers that select no read register (R230). -/
theorem decodeDartControlRead_reserved {n : BitVec 3} (hn : 3 ≤ n.toNat ∨ (n = 2#3 ∧ p = .a)) :
    decodeDartControlRead k p n = .dartReadReserved k p := by
  rcases hn with hn | ⟨rfl, rfl⟩
  · rcases reservedPointer_cases hn with rfl | rfl | rfl | rfl | rfl <;> rfl
  · rfl

end

/-! Which row an access is: what the addressed chip shows is enough. -/

section
variable {vs : List ChipView} {k : Nat} {p : Side} {i : Instr}

theorem decodeRequest_controlWrite_pio {w : Cws} {b : Byte} (hv : ∃ v, vs[k]? = some v ∧ v.cwsIs p w = true)
    (hi : decodePioControl k p w b = i) : decodeRequest vs (.controlWrite k p b) = .ok i := by
  obtain ⟨v, hv, hw⟩ := hv
  cases v with
  | pio o mA mB wA wB =>
    obtain rfl : p.pick wA wB = w := by simpa [ChipView.cwsIs] using hw
    simp [decodeRequest, withChip, hv, ChipView.controlSlot, decodeBytes, hi]
  | dart => simp [ChipView.cwsIs] at hw

theorem decodeRequest_dataWrite_pio {m : Mode} {b : Byte} (hv : ∃ v, vs[k]? = some v ∧ v.modeIs p m = true)
    (hi : decodePioDataWrite k p m b = i) : decodeRequest vs (.dataWrite k p b) = .ok i := by
  obtain ⟨v, hv, hm⟩ := hv
  cases v with
  | pio o mA mB wA wB =>
    obtain rfl : p.pick mA mB = m := by simpa [ChipView.modeIs] using hm
    simp [decodeRequest, withChip, hv, ChipView.dataSlot, decodeBytes, hi]
  | dart => simp [ChipView.modeIs] at hm

theorem decodeRequest_dataRead_pio {m : Mode} (hv : ∃ v, vs[k]? = some v ∧ v.modeIs p m = true)
    (hi : decodePioDataRead k p m = i) : decodeRequest vs (.dataRead k p) = .ok i := by
  obtain ⟨v, hv, hm⟩ := hv
  cases v with
  | pio o mA mB wA wB =>
    obtain rfl : p.pick mA mB = m := by simpa [ChipView.modeIs] using hm
    simp [decodeRequest, withChip, hv, hi]
  | dart => simp [ChipView.modeIs] at hm

theorem decodeRequest_controlWrite_dart {n : BitVec 3} {b : Byte} (hv : ∃ v, vs[k]? = some v ∧ v.ptrIs p n = true)
    (hi : decodeDartControl k p n b = i) : decodeRequest vs (.controlWrite k p b) = .ok i := by
  obtain ⟨v, hv, hn⟩ := hv
  cases v with
  | pio => simp [ChipView.ptrIs] at hn
  | dart o nA nB =>
    obtain rfl : p.pick nA nB = n := by simpa [ChipView.ptrIs] using hn
    simp [decodeRequest, withChip, hv, ChipView.controlSlot, decodeBytes, hi]

theorem decodeRequest_controlRead_dart {n : BitVec 3} (hv : ∃ v, vs[k]? = some v ∧ v.ptrIs p n = true)
    (hi : decodeDartControlRead k p n = i) : decodeRequest vs (.controlRead k p) = .ok i := by
  obtain ⟨v, hv, hn⟩ := hv
  cases v with
  | pio => simp [ChipView.ptrIs] at hn
  | dart o nA nB =>
    obtain rfl : p.pick nA nB = n := by simpa [ChipView.ptrIs] using hn
    simp [decodeRequest, withChip, hv, hi]

/-- A strobe is the row of the port's own mode where that mode handles it (R190). -/
theorem decodeRequest_strobe_own {m : Mode} {l : Level}
    (hv : ∃ v, vs[k]? = some v ∧ (v.strobeOwn p && v.modeIs p m) = true) (hi : decodeStrobe k p m m l = i)
    (hm : m ≠ .bidir ∨ p = .a) : decodeRequest vs (.strobe k p l) = .ok i := by
  obtain ⟨v, hv, hsel⟩ := hv
  obtain ⟨hown, hmode⟩ := Bool.and_eq_true_iff.mp hsel
  cases v with
  | dart => simp [ChipView.modeIs] at hmode
  | pio o mA mB wA wB =>
    obtain rfl : p.pick mA mB = m := by simpa [ChipView.modeIs] using hmode
    subst hi
    cases p with
    | a => simp [decodeRequest, withChip, hv, decodeStrobe, Side.pick]
    | b =>
      have hA : mA ≠ .bidir := by simpa [ChipView.strobeOwn, ChipView.modeIs, Side.pick] using hown
      have hB : mB ≠ .bidir := by simpa [Side.pick] using hm
      simp only [decodeRequest, withChip, hv, decodeStrobe, Side.pick]

/-- While port A is Bidirectional each port's strobe is the row of R194 or R195. -/
theorem decodeRequest_strobe_bidir {l : Level} (hv : ∃ v, vs[k]? = some v ∧ v.modeIs .a .bidir = true) :
    decodeRequest vs (.strobe k .a l) = .ok (.pioStrobeBidirA k l) ∧
      decodeRequest vs (.strobe k .b l) = .ok (.pioStrobeBWhileABidir k l) := by
  obtain ⟨v, hv, hm⟩ := hv
  cases v with
  | dart => simp [ChipView.modeIs] at hm
  | pio o mA mB wA wB =>
    obtain rfl : mA = .bidir := by simpa [ChipView.modeIs, Side.pick] using hm
    constructor <;> simp [decodeRequest, withChip, hv, decodeStrobe]

/-! Where the chain selects a row, its chip is there and in the state of the row's "when". -/

theorem selectedIn_row (ho : i.operand.position = some k) (h : i.selectedIn vs = true) :
    ∃ v, vs[k]? = some v ∧ i.rowSelectedBy v = true := by
  have hmap : (vs[k]?.map i.rowSelectedBy).getD false = true := by
    rw [Instr.selectedIn, Bool.and_eq_true] at h
    obtain ⟨-, hrow⟩ := h
    cases hop : i.operand with
    | wholeChain => simp [hop, Operand.position] at ho
    | anyChip n | pioChip n | dartChip n =>
      obtain rfl : n = k := Option.some.inj ((congrArg Operand.position hop).symm.trans ho)
      simpa [hop] using hrow
  cases hv : vs[k]? with
  | none => simp [hv] at hmap
  | some v => exact ⟨v, rfl, by simpa [hv] using hmap⟩

theorem selectedIn_inChain (h : i.selectedIn vs = true) : i.operand.inChain vs = true := by
  rw [Instr.selectedIn, Bool.and_eq_true] at h
  obtain ⟨hchain, -⟩ := h
  exact hchain

/-! Rows without a "when": the kind of the chip is enough. -/

theorem withChip_of_anyChip {f : ChipView → Except Reject Instr} (hv : (Operand.anyChip k).inChain vs = true)
    (hf : ∀ v, f v = .ok i) : withChip vs k f = .ok i := by
  obtain ⟨v, hv⟩ := Option.isSome_iff_exists.mp hv
  rw [withChip, hv]
  exact hf v

theorem withChip_of_pio {f : ChipView → Except Reject Instr} (hv : (Operand.pioChip k).inChain vs = true)
    (hf : ∀ o mA mB wA wB, f (.pio o mA mB wA wB) = .ok i) : withChip vs k f = .ok i := by
  rw [Operand.inChain] at hv
  split at hv
  · rename_i hk
    rw [withChip, hk]
    exact hf ..
  · cases hv

theorem withChip_of_dart {f : ChipView → Except Reject Instr} (hv : (Operand.dartChip k).inChain vs = true)
    (hf : ∀ o nA nB, f (.dart o nA nB) = .ok i) : withChip vs k f = .ok i := by
  rw [Operand.inChain] at hv
  split at hv
  · rename_i hk
    rw [withChip, hk]
    exact hf ..
  · cases hv

end

/-- The pointer behind a reserved read (R230). -/
theorem exists_ptr_of_ptrReserved {v : ChipView} {c : Side} (h : v.ptrReserved c = true) :
    ∃ n, v.ptrIs c n = true ∧ (3 ≤ n.toNat ∨ (n = 2#3 ∧ c = .a)) := by
  cases v with
  | pio => simp [ChipView.ptrReserved, ChipView.ptrIs] at h
  | dart o nA nB =>
    refine ⟨c.pick nA nB, by simp [ChipView.ptrIs], ?_⟩
    simp only [ChipView.ptrReserved, ChipView.ptrIs] at h
    generalize c.pick nA nB = n at h
    revert h
    cases c <;> revert n <;> decide

/-! The bus words (R110). -/

theorem decodeBusWord_busWrite (k : Nat) (selC selB : Bool) (d : Byte) :
    decodeBusWord k (encode (.busWrite k selC selB d)) = .ok (.busWrite k selC selB d) := by
  cases selC <;> cases selB <;> rfl

theorem decodeBusWord_busRead (k : Nat) (selC selB : Bool) :
    decodeBusWord k (encode (.busRead k selC selB)) = .ok (.busRead k selC selB) := by
  cases selC <;> cases selB <;> rfl

/-! Decoded bytes encode back. -/

theorem encode_modeRow (k : Nat) (p : Side) (m x : BitVec 2) : encode (modeRow k p m x) = [modeByte m x] := by
  rcases modeField_cases m with rfl | rfl | rfl | rfl <;> rfl

/-- The row that a control byte in NORMAL decodes to is written with that byte. -/
theorem encode_decodePioControl_normal (k : Nat) (p : Side) (b : Byte) :
    encode (decodePioControl k p .normal b) = [b] := by
  have hres := reservedByte_fields b
  rw [decodePioControl_normal]
  rcases low_cases (b.extractLsb' 0 4) with h | h | h | h | h | h | h | h | h
  case inl =>
    rw [h]
    exact (encode_modeRow k p ..).trans (by rw [modeByte_fields b h])
  case inr.inl =>
    rw [h]
    exact congrArg (fun w => [w]) (icwByte_fields b h)
  case inr.inr.inr.inr.inr.inr.inr.inr =>
    rw [controlRow_even k p b h, encode, vectorByte_fields b (by rw [← bit0_low, h])]
  all_goals
    rw [h] at hres ⊢
    exact congrArg (fun w => [w]) hres

theorem encode_wr0Row (k : Nat) (c : Side) (m : BitVec 3) (x : BitVec 2) (n : BitVec 3) :
    encode (wr0Row k c m x n) = [wr0Byte x m n] := by
  rcases pointer_cases m with rfl | rfl | rfl | rfl | rfl | rfl | rfl | rfl <;> rfl

theorem encode_decodeDartControl (k : Nat) (c : Side) (n : BitVec 3) (b : Byte) :
    encode (decodeDartControl k c n b) = [b] := by
  rcases pointer_cases n with rfl | rfl | rfl | rfl | rfl | rfl | rfl | rfl
  case inl => exact (encode_wr0Row k c ..).trans (by rw [wr0Byte_fields])
  all_goals rfl

theorem encode_decodePioControl (k : Nat) (p : Side) (w : Cws) (b : Byte) :
    encode (decodePioControl k p w b) = [b] := by
  cases w with
  | normal => exact encode_decodePioControl_normal k p b
  | setDir => rfl
  | setMask => rfl

theorem encode_decodePioDataWrite (k : Nat) (p : Side) (m : Mode) (b : Byte) :
    encode (decodePioDataWrite k p m b) = [b] := by
  cases m <;> rfl

theorem encode_of_decodeBusWord {k : Nat} {bs : List Byte} {i : Instr} (h : decodeBusWord k bs = .ok i) :
    encode i = bs := by
  unfold decodeBusWord at h
  split at h
  · rename_i b
    split at h
    · rename_i hb
      cases h
      rw [encode, ← hb, busByte_fields]
    · cases h
  · rename_i d b
    split at h
    · rename_i hb
      cases h
      rw [encode, ← hb, busByte_fields]
    · cases h
  · cases h

/-- Every byte-wide slot decodes exactly one byte, to a row written with it (R125). -/
theorem decodeBytes_byteWide {sl : Slot} (hsl : ∀ k, sl ≠ .bus k) :
    (∀ b, ∃ i, decodeBytes sl [b] = .ok i ∧ encode i = [b]) ∧
      ∀ bs i, decodeBytes sl bs = .ok i → ∃ b, bs = [b] := by
  constructor
  · intro b
    cases sl with
    | bus k => exact absurd rfl (hsl k)
    | pioControl k p w => exact ⟨_, rfl, encode_decodePioControl k p w b⟩
    | pioData k p m => exact ⟨_, rfl, encode_decodePioDataWrite k p m b⟩
    | dartControl k c n => exact ⟨_, rfl, encode_decodeDartControl k c n b⟩
    | dartData k c => exact ⟨_, rfl, rfl⟩
  · intro bs i h
    match bs with
    | [b] => exact ⟨b, rfl⟩
    | [] | _ :: _ :: _ =>
      cases sl with
      | bus k => exact absurd rfl (hsl k)
      | _ => cases h

/-! The obligations. -/

/-- Settles O1: each word decodes by computation. -/
theorem decodeSampleWords : Obligations.DecodeSampleWords := by
  unfold Obligations.DecodeSampleWords
  decide

/-- Settles O2: the state that selects the row decodes its byte, or its access, at the slot the row stands for. -/
theorem requestRoundTrip : Obligations.RequestRoundTrip := by
  intro vs i h
  cases i with
  | pioVectorWord k p v =>
    exact decodeRequest_controlWrite_pio (selectedIn_row rfl h) (decodePioControl_vectorByte k p v)
  | pioModeOutput k p x =>
    exact decodeRequest_controlWrite_pio (selectedIn_row rfl h) (decodePioControl_modeByte k p 0b00#2 x)
  | pioModeInput k p x =>
    exact decodeRequest_controlWrite_pio (selectedIn_row rfl h) (decodePioControl_modeByte k p 0b01#2 x)
  | pioModeBidir k p x =>
    exact decodeRequest_controlWrite_pio (selectedIn_row rfl h) (decodePioControl_modeByte k p 0b10#2 x)
  | pioModeBitctl k p x =>
    exact decodeRequest_controlWrite_pio (selectedIn_row rfl h) (decodePioControl_modeByte k p 0b11#2 x)
  | pioIntControlWord k p ei ao hl mf =>
    exact decodeRequest_controlWrite_pio (selectedIn_row rfl h) (decodePioControl_icwByte k p ei ao hl mf)
  | pioReserved1 k p x =>
    exact decodeRequest_controlWrite_pio (selectedIn_row rfl h) (decodePioControl_reserved1 k p x)
  | pioReserved3 k p x =>
    exact decodeRequest_controlWrite_pio (selectedIn_row rfl h) (decodePioControl_reserved3 k p x)
  | pioReserved5 k p x =>
    exact decodeRequest_controlWrite_pio (selectedIn_row rfl h) (decodePioControl_reserved5 k p x)
  | pioReserved9 k p x =>
    exact decodeRequest_controlWrite_pio (selectedIn_row rfl h) (decodePioControl_reserved9 k p x)
  | pioReservedB k p x =>
    exact decodeRequest_controlWrite_pio (selectedIn_row rfl h) (decodePioControl_reservedB k p x)
  | pioReservedD k p x =>
    exact decodeRequest_controlWrite_pio (selectedIn_row rfl h) (decodePioControl_reservedD k p x)
  | pioDirectionByte k p b => exact decodeRequest_controlWrite_pio (selectedIn_row rfl h) rfl
  | pioMaskByte k p b => exact decodeRequest_controlWrite_pio (selectedIn_row rfl h) rfl
  | pioDataWriteOut k p b => exact decodeRequest_dataWrite_pio (selectedIn_row rfl h) rfl
  | pioDataWriteIn k p b => exact decodeRequest_dataWrite_pio (selectedIn_row rfl h) rfl
  | pioDataWriteBidir k p b => exact decodeRequest_dataWrite_pio (selectedIn_row rfl h) rfl
  | pioDataWriteBitctl k p b => exact decodeRequest_dataWrite_pio (selectedIn_row rfl h) rfl
  | pioDataReadOut k p => exact decodeRequest_dataRead_pio (selectedIn_row rfl h) rfl
  | pioDataReadIn k p => exact decodeRequest_dataRead_pio (selectedIn_row rfl h) rfl
  | pioDataReadBidir k p => exact decodeRequest_dataRead_pio (selectedIn_row rfl h) rfl
  | pioDataReadBitctl k p => exact decodeRequest_dataRead_pio (selectedIn_row rfl h) rfl
  | pioStrobeOut k p l =>
    exact decodeRequest_strobe_own (selectedIn_row rfl h) (by cases p <;> rfl) (.inl (by decide))
  | pioStrobeIn k p l =>
    exact decodeRequest_strobe_own (selectedIn_row rfl h) (by cases p <;> rfl) (.inl (by decide))
  | pioStrobeBitctl k p l =>
    exact decodeRequest_strobe_own (selectedIn_row rfl h) (by cases p <;> rfl) (.inl (by decide))
  | pioStrobeBidirA k l =>
    obtain ⟨hA, -⟩ := decodeRequest_strobe_bidir (selectedIn_row rfl h)
    exact hA
  | pioStrobeBWhileABidir k l =>
    obtain ⟨-, hB⟩ := decodeRequest_strobe_bidir (selectedIn_row rfl h)
    exact hB
  | pioControlRead k p => exact withChip_of_pio (selectedIn_inChain h) fun _ _ _ _ _ => rfl
  | pioPollTick k => exact withChip_of_pio (selectedIn_inChain h) fun _ _ _ _ _ => rfl
  | resetPio k => exact withChip_of_pio (selectedIn_inChain h) fun _ _ _ _ _ => rfl
  | dartWr0Null k c x n =>
    exact decodeRequest_controlWrite_dart (selectedIn_row rfl h) (decodeDartControl_wr0Byte k c x 0#3 n)
  | dartWr0Cmd1 k c x n =>
    exact decodeRequest_controlWrite_dart (selectedIn_row rfl h) (decodeDartControl_wr0Byte k c x 1#3 n)
  | dartWr0ResetExtStatus k c x n =>
    exact decodeRequest_controlWrite_dart (selectedIn_row rfl h) (decodeDartControl_wr0Byte k c x 2#3 n)
  | dartWr0ChannelReset k c x n =>
    exact decodeRequest_controlWrite_dart (selectedIn_row rfl h) (decodeDartControl_wr0Byte k c x 3#3 n)
  | dartWr0EnableIntNextRx k c x n =>
    exact decodeRequest_controlWrite_dart (selectedIn_row rfl h) (decodeDartControl_wr0Byte k c x 4#3 n)
  | dartWr0Cmd5 k c x n =>
    exact decodeRequest_controlWrite_dart (selectedIn_row rfl h) (decodeDartControl_wr0Byte k c x 5#3 n)
  | dartWr0ErrorReset k c x n =>
    exact decodeRequest_controlWrite_dart (selectedIn_row rfl h) (decodeDartControl_wr0Byte k c x 6#3 n)
  | dartWr0ReturnFromInt k c x n =>
    exact decodeRequest_controlWrite_dart (selectedIn_row rfl h) (decodeDartControl_wr0Byte k c x 7#3 n)
  | dartWr1 k c v => exact decodeRequest_controlWrite_dart (selectedIn_row rfl h) rfl
  | dartWr2 k c v => exact decodeRequest_controlWrite_dart (selectedIn_row rfl h) rfl
  | dartWr3 k c v => exact decodeRequest_controlWrite_dart (selectedIn_row rfl h) rfl
  | dartWr4 k c v => exact decodeRequest_controlWrite_dart (selectedIn_row rfl h) rfl
  | dartWr5 k c v => exact decodeRequest_controlWrite_dart (selectedIn_row rfl h) rfl
  | dartWr6Wr7Discard k c x =>
    obtain ⟨v, hv, hrow⟩ := selectedIn_row rfl h
    rcases Bool.or_eq_true_iff.mp hrow with hn | hn
    · exact decodeRequest_controlWrite_dart ⟨v, hv, hn⟩ rfl
    · exact decodeRequest_controlWrite_dart ⟨v, hv, hn⟩ rfl
  | dartReadRr0 k c => exact decodeRequest_controlRead_dart (selectedIn_row rfl h) rfl
  | dartReadRr1 k c => exact decodeRequest_controlRead_dart (selectedIn_row rfl h) rfl
  | dartReadRr2 k => exact decodeRequest_controlRead_dart (selectedIn_row rfl h) rfl
  | dartReadReserved k c =>
    obtain ⟨v, hv, hrow⟩ := selectedIn_row rfl h
    obtain ⟨n, hn, hres⟩ := exists_ptr_of_ptrReserved hrow
    exact decodeRequest_controlRead_dart ⟨v, hv, hn⟩ (decodeDartControlRead_reserved k c hres)
  | dartDataWrite k c v => exact withChip_of_dart (selectedIn_inChain h) fun _ _ _ => rfl
  | dartDataRead k c => exact withChip_of_dart (selectedIn_inChain h) fun _ _ _ => rfl
  | dartReceiveData k c v => exact withChip_of_dart (selectedIn_inChain h) fun _ _ _ => rfl
  | dartCtsW k c l => exact withChip_of_dart (selectedIn_inChain h) fun _ _ _ => rfl
  | dartDcdW k c l => exact withChip_of_dart (selectedIn_inChain h) fun _ _ _ => rfl
  | dartRiW k c l => exact withChip_of_dart (selectedIn_inChain h) fun _ _ _ => rfl
  | dartRxcaW k => exact withChip_of_dart (selectedIn_inChain h) fun _ _ _ => rfl
  | dartTxcaW k => exact withChip_of_dart (selectedIn_inChain h) fun _ _ _ => rfl
  | dartRxtxcbW k => exact withChip_of_dart (selectedIn_inChain h) fun _ _ _ => rfl
  | resetDart k => exact withChip_of_dart (selectedIn_inChain h) fun _ _ _ => rfl
  | busWrite k selC selB d =>
    exact withChip_of_anyChip (selectedIn_inChain h) fun _ => decodeBusWord_busWrite k selC selB d
  | busRead k selC selB =>
    exact withChip_of_anyChip (selectedIn_inChain h) fun _ => decodeBusWord_busRead k selC selB
  | irqState k => exact withChip_of_anyChip (selectedIn_inChain h) fun _ => rfl
  | irqAck k => exact withChip_of_anyChip (selectedIn_inChain h) fun _ => rfl
  | irqReti k => exact withChip_of_anyChip (selectedIn_inChain h) fun _ => rfl
  | chainInt => rfl
  | chainAck => rfl
  | chainReti => rfl

/-- Settles O3: slot by slot; a bus slot fixes the six upper bits, every other slot takes exactly one byte. -/
theorem decodedBytesEncodeBack : Obligations.DecodedBytesEncodeBack := by
  constructor
  · intro sl bs i h
    by_cases hsl : ∀ k, sl ≠ .bus k
    · obtain ⟨henc, hone⟩ := decodeBytes_byteWide hsl
      obtain ⟨b, rfl⟩ := hone bs i h
      obtain ⟨j, hj, hb⟩ := henc b
      cases hj.symm.trans h
      exact hb
    · obtain ⟨k, rfl⟩ := not_forall_not.mp hsl
      exact encode_of_decodeBusWord h
  · intro sl b hsl
    obtain ⟨henc, -⟩ := decodeBytes_byteWide hsl
    obtain ⟨i, hi, -⟩ := henc b
    exact ⟨i, hi⟩

end Sys2Proof
end

section
/-! Rows and accesses (R130, R131, R150, R170, R175, R190, R211, R226; log entries 12, 14): in every state a row does
what the access it stands for does there. So what an operation of an agent does is said once per access, not once per
row. -/

-- One proof at a time: the check then needs fewer threads, each of which takes part of its memory.
set_option Elab.async false

namespace Sys2Proof.Machine

open Sys2Proof

/-! A byte at a PIO control register, case by case (R150). -/

section
variable {p : Side} {v : Byte} {x : Act PioChip}

theorem pioControlWrite_setDir (h : (x.chip.port p).cws = .setDir) : pioControlWrite p v x = directionByte p v x := by
  simp only [pioControlWrite, h]

theorem pioControlWrite_setMask (h : (x.chip.port p).cws = .setMask) : pioControlWrite p v x = maskByte p v x := by
  simp only [pioControlWrite, h]

theorem pioControlWrite_even (h : (x.chip.port p).cws = .normal) (hv : v.getLsbD 0 = false) :
    pioControlWrite p v x = vectorWord p v x := by
  simp only [pioControlWrite, h, hv, if_true]

theorem pioControlWrite_odd (h : (x.chip.port p).cws = .normal) (hv : v.getLsbD 0 = true) :
    pioControlWrite p v x =
      if v.extractLsb' 0 4 = 0xF#4 then modeWord p v x
      else if v.extractLsb' 0 4 = 0x7#4 then intControlWord p v x
      else x := by
  simp only [pioControlWrite, h, hv, Bool.true_eq_false, if_false, reservedWord]

end

theorem bit0_of_low {v : Byte} {n : BitVec 4} (h : v.extractLsb' 0 4 = n) : v.getLsbD 0 = n.getLsbD 0 := by
  rw [← h, bit0_low]

section
variable {p : Side} {x : Act PioChip} (h : (x.chip.port p).cws = .normal)
include h

theorem pioControlWrite_modeByte (m f : BitVec 2) :
    pioControlWrite p (modeByte m f) x = modeWord p (modeByte m f) x := by
  have hlow := modeByte_low m f
  rw [pioControlWrite_odd h (bit0_of_low hlow), if_pos hlow]

theorem pioControlWrite_icwByte (ei ao hl mf : Bool) :
    pioControlWrite p (icwByte ei ao hl mf) x = intControlWord p (icwByte ei ao hl mf) x := by
  have hlow := icwByte_low ei ao hl mf
  rw [pioControlWrite_odd h (bit0_of_low hlow), hlow, if_neg (by decide), if_pos rfl]

/-- The odd nibbles that are neither a mode word nor an interrupt control word are reserved (R159). -/
theorem pioControlWrite_reservedByte (f : BitVec 4) {n : BitVec 4} (h0 : n.getLsbD 0 = true) (hF : n ≠ 0xF#4)
    (h7 : n ≠ 0x7#4) : pioControlWrite p (reservedByte f n) x = x := by
  have hlow := reservedByte_low f n
  rw [pioControlWrite_odd h ((bit0_of_low hlow).trans h0), hlow, if_neg hF, if_neg h7]

end

section
variable (p : Side) (f : BitVec 2) (x : Act PioChip)

theorem modeWord_output : modeWord p (modeByte 0b00#2 f) x = modeOutput p x := by
  simp only [modeWord, modeByte_mode]
theorem modeWord_input : modeWord p (modeByte 0b01#2 f) x = modeInput p x := by
  simp only [modeWord, modeByte_mode]
theorem modeWord_bidir : modeWord p (modeByte 0b10#2 f) x = modeBidir p x := by
  simp only [modeWord, modeByte_mode]
theorem modeWord_bitctl : modeWord p (modeByte 0b11#2 f) x = modeBitctl p x := by simp [modeWord]

end

/-! A byte at a DART control register, and a read of one, case by case (R211, R226). -/

section
variable {c : Side} {v : Byte} {x : Act DartChip} {resets : Bool} {n : BitVec 3}

theorem dartControlWrite_wr0 (h : (x.chip.ch c).ptr = 0#3) : dartControlWrite c v x = writeWr0 c v x := by
  simp only [dartControlWrite, h]

/-- The command of a WR0 byte, once the byte is stored (R213 to R219). -/
def wr0Command (m : BitVec 3) (c : Side) (x : Act DartChip) : Act DartChip :=
  match m with
  | 2#3 => resetExtStatus c x
  | 3#3 => channelReset c x
  | 4#3 => enableNextRx c x
  | 6#3 => errorReset c x
  | 7#3 => DartChip.irqReti x
  | _ => x

theorem writeWr0_eq : writeWr0 c v x = wr0Command (wr0Cmd v) c (storeWr0 c v x) := rfl

/-- The write that a pointer other than 0 selects: WR1 to WR5, or nothing (R221 to R225). -/
def writeRegister (n : BitVec 3) (c : Side) (v : Byte) (x : Act DartChip) : Act DartChip :=
  match n with
  | 1#3 => writeWr1 c v x
  | 2#3 => writeWr2 c v x
  | 3#3 => writeWr3 c v x
  | 4#3 => writeWr4 c v x
  | 5#3 => writeWr5 c v x
  | _ => x

theorem dartControlWrite_register (h : (x.chip.ch c).ptr = n) (hn : n ≠ 0#3) :
    dartControlWrite c v x = pointerHome c (writeRegister n c v x) := by
  simp only [dartControlWrite, h]
  rcases pointer_cases n with rfl | rfl | rfl | rfl | rfl | rfl | rfl | rfl
  case inl => exact absurd rfl hn
  all_goals rfl

/-- What a read of a control register answers, by the pointer (R226). -/
def readRegister (n : BitVec 3) (c : Side) (x : Act DartChip) : Act DartChip :=
  match n with
  | 0#3 => readRr0 c x
  | 1#3 => readRr1 c x
  | 2#3 =>
    match c with
    | .a => readReserved x
    | .b => readRr2 x
  | _ => readReserved x

theorem dartControlRead_eq :
    dartControlRead resets c x = readRegister (x.chip.ch c).ptr c (readPointer resets c x) := rfl

theorem readRegister_reserved (h : 3 ≤ n.toNat ∨ (n = 2#3 ∧ c = .a)) : readRegister n c x = readReserved x := by
  rcases h with h | ⟨rfl, rfl⟩
  · rcases reservedPointer_cases h with rfl | rfl | rfl | rfl | rfl <;> rfl
  · rfl

end

/-! Each form of a row: where it agrees with the access in the state that selects it, it is the access in every
state. -/

theorem pioControlForm_eq {k : Nat} {p : Side} {w : Cws} {v : Byte} {s : State} {own : Act PioChip → Act PioChip}
    (h : ∀ x : Act PioChip, (x.chip.port p).cws = w → pioControlWrite p v x = own x) :
    pioControlForm k p w v s own = onPio k s fun c => pioControlWrite p v (Act.begin c) := by
  refine congrArg (onPio k s) (funext fun c => ?_)
  split
  · rename_i hw
    exact (h _ hw).symm
  · rfl

theorem pioDataWriteForm_eq {k : Nat} {p : Side} {m : Mode} {v : Byte} {s : State} {own : Act PioChip → Act PioChip}
    (h : ∀ x : Act PioChip, (x.chip.port p).mode = m → pioDataWrite p v x = own x) :
    pioDataWriteForm k p m v s own = onPio k s fun c => pioDataWrite p v (Act.begin c) := by
  refine congrArg (onPio k s) (funext fun c => ?_)
  split
  · rename_i hm
    exact (h _ hm).symm
  · rfl

theorem pioDataReadForm_eq {k : Nat} {p : Side} {m : Mode} {s : State} {own : Act PioChip → Act PioChip}
    (h : ∀ x : Act PioChip, (x.chip.port p).mode = m → pioDataRead p x = own x) :
    pioDataReadForm k p m s own = onPio k s fun c => pioDataRead p (Act.begin c) := by
  refine congrArg (onPio k s) (funext fun c => ?_)
  split
  · rename_i hm
    exact (h _ hm).symm
  · rfl

/-- A port whose strobe its own mode handles (R190). -/
theorem strobeAction_own {p : Side} {l : Level} {x : Act PioChip} (h : x.chip.ownStrobe p = true) :
    strobeAction p l x = strobeByMode p l x := by
  refine if_neg ?_
  rintro ⟨rfl, hA⟩
  simp [PioChip.ownStrobe, hA] at h

theorem pioStrobeForm_eq {k : Nat} {p : Side} {m : Mode} {l : Level} {s : State} {own : Act PioChip → Act PioChip}
    (h : ∀ x : Act PioChip, (x.chip.port p).mode = m → strobeByMode p l x = own x) :
    pioStrobeForm k p m l s own = onPio k s fun c => pioStrobe p l (Act.begin c) := by
  refine congrArg (onPio k s) (funext fun c => ?_)
  split
  · rename_i hm
    obtain ⟨hown, hmode⟩ := hm
    rw [pioStrobe, strobeAction_own hown, h _ hmode]
  · rfl

theorem dartControlForm_eq {k : Nat} {c : Side} {n : BitVec 3} {v : Byte} {s : State}
    {own : Act DartChip → Act DartChip}
    (h : ∀ x : Act DartChip, (x.chip.ch c).ptr = n → dartControlWrite c v x = own x) :
    dartControlForm k c n v s own = onDart k s fun d => dartControlWrite c v (Act.begin d) := by
  refine congrArg (onDart k s) (funext fun d => ?_)
  split
  · rename_i hn
    exact (h _ hn).symm
  · rfl

theorem dartReadForm_eq {k : Nat} {c : Side} {n : BitVec 3} {s : State} {own : Act DartChip → Act DartChip}
    (h : ∀ x : Act DartChip, (x.chip.ch c).ptr = n →
      dartControlRead s.readResetsPtr c x = own (readPointer s.readResetsPtr c x)) :
    dartReadForm k c n s own = onDart k s fun d => dartControlRead s.readResetsPtr c (Act.begin d) := by
  refine congrArg (onDart k s) (funext fun d => ?_)
  split
  · rename_i hn
    exact (h _ hn).symm
  · rfl

/-! What each row does in every state. -/

section
variable (k : Nat) (p : Side) (s : State)

theorem exec_pioVectorWord_eq (v : BitVec 7) :
    exec (.pioVectorWord k p v) s = onPio k s fun c => pioControlWrite p (vectorByte v) (Act.begin c) :=
  pioControlForm_eq fun _ h => pioControlWrite_even h (vectorByte_bit0 v)

theorem exec_pioModeOutput_eq (f : BitVec 2) :
    exec (.pioModeOutput k p f) s = onPio k s fun c => pioControlWrite p (modeByte 0b00#2 f) (Act.begin c) :=
  pioControlForm_eq fun x h => (pioControlWrite_modeByte h ..).trans (modeWord_output p f x)

theorem exec_pioModeInput_eq (f : BitVec 2) :
    exec (.pioModeInput k p f) s = onPio k s fun c => pioControlWrite p (modeByte 0b01#2 f) (Act.begin c) :=
  pioControlForm_eq fun x h => (pioControlWrite_modeByte h ..).trans (modeWord_input p f x)

theorem exec_pioModeBidir_eq (f : BitVec 2) :
    exec (.pioModeBidir k p f) s = onPio k s fun c => pioControlWrite p (modeByte 0b10#2 f) (Act.begin c) :=
  pioControlForm_eq fun x h => (pioControlWrite_modeByte h ..).trans (modeWord_bidir p f x)

theorem exec_pioModeBitctl_eq (f : BitVec 2) :
    exec (.pioModeBitctl k p f) s = onPio k s fun c => pioControlWrite p (modeByte 0b11#2 f) (Act.begin c) :=
  pioControlForm_eq fun x h => (pioControlWrite_modeByte h ..).trans (modeWord_bitctl p f x)

theorem exec_pioIntControlWord_eq (ei ao hl mf : Bool) :
    exec (.pioIntControlWord k p ei ao hl mf) s =
      onPio k s fun c => pioControlWrite p (icwByte ei ao hl mf) (Act.begin c) :=
  pioControlForm_eq fun _ h => pioControlWrite_icwByte h ..

/-- The reserved words: a form that does nothing of its own (R159). -/
theorem reservedForm_eq (f : BitVec 4) {n : BitVec 4} (h0 : n.getLsbD 0 = true) (hF : n ≠ 0xF#4) (h7 : n ≠ 0x7#4) :
    pioControlForm k p .normal (reservedByte f n) s reservedWord =
      onPio k s fun c => pioControlWrite p (reservedByte f n) (Act.begin c) :=
  pioControlForm_eq fun _ h => pioControlWrite_reservedByte h f h0 hF h7

theorem exec_pioReserved1_eq (f : BitVec 4) :
    exec (.pioReserved1 k p f) s = onPio k s fun c => pioControlWrite p (reservedByte f 0x1#4) (Act.begin c) :=
  reservedForm_eq k p s f rfl (by decide) (by decide)
theorem exec_pioReserved3_eq (f : BitVec 4) :
    exec (.pioReserved3 k p f) s = onPio k s fun c => pioControlWrite p (reservedByte f 0x3#4) (Act.begin c) :=
  reservedForm_eq k p s f rfl (by decide) (by decide)
theorem exec_pioReserved5_eq (f : BitVec 4) :
    exec (.pioReserved5 k p f) s = onPio k s fun c => pioControlWrite p (reservedByte f 0x5#4) (Act.begin c) :=
  reservedForm_eq k p s f rfl (by decide) (by decide)
theorem exec_pioReserved9_eq (f : BitVec 4) :
    exec (.pioReserved9 k p f) s = onPio k s fun c => pioControlWrite p (reservedByte f 0x9#4) (Act.begin c) :=
  reservedForm_eq k p s f rfl (by decide) (by decide)
theorem exec_pioReservedB_eq (f : BitVec 4) :
    exec (.pioReservedB k p f) s = onPio k s fun c => pioControlWrite p (reservedByte f 0xB#4) (Act.begin c) :=
  reservedForm_eq k p s f rfl (by decide) (by decide)
theorem exec_pioReservedD_eq (f : BitVec 4) :
    exec (.pioReservedD k p f) s = onPio k s fun c => pioControlWrite p (reservedByte f 0xD#4) (Act.begin c) :=
  reservedForm_eq k p s f rfl (by decide) (by decide)

theorem exec_pioDirectionByte_eq (v : Byte) :
    exec (.pioDirectionByte k p v) s = onPio k s fun c => pioControlWrite p v (Act.begin c) :=
  pioControlForm_eq fun _ h => pioControlWrite_setDir h

theorem exec_pioMaskByte_eq (v : Byte) :
    exec (.pioMaskByte k p v) s = onPio k s fun c => pioControlWrite p v (Act.begin c) :=
  pioControlForm_eq fun _ h => pioControlWrite_setMask h

theorem exec_wr0Row (m : BitVec 3) (f : BitVec 2) (n : BitVec 3) :
    exec (wr0Row k p m f n) s =
      dartControlForm k p 0#3 (wr0Byte f m n) s fun y => wr0Command m p (storeWr0 p (wr0Byte f m n) y) := by
  rcases pointer_cases m with rfl | rfl | rfl | rfl | rfl | rfl | rfl | rfl <;> rfl

theorem exec_wr0Row_eq (m : BitVec 3) (f : BitVec 2) (n : BitVec 3) :
    exec (wr0Row k p m f n) s = onDart k s fun d => dartControlWrite p (wr0Byte f m n) (Act.begin d) := by
  rw [exec_wr0Row]
  exact dartControlForm_eq fun x h => by rw [dartControlWrite_wr0 h, writeWr0_eq, wr0Cmd, wr0Byte_cmd]

/-- WR1 to WR5. -/
theorem dartRegisterForm_eq {n : BitVec 3} (hn : n ≠ 0#3) (v : Byte) :
    dartControlForm k p n v s (fun y => pointerHome p (writeRegister n p v y)) =
      onDart k s fun d => dartControlWrite p v (Act.begin d) :=
  dartControlForm_eq fun _ h => dartControlWrite_register h hn

theorem exec_dartWr1_eq (v : Byte) :
    exec (.dartWr1 k p v) s = onDart k s fun d => dartControlWrite p v (Act.begin d) :=
  dartRegisterForm_eq k p s (by decide) v
theorem exec_dartWr2_eq (v : Byte) :
    exec (.dartWr2 k p v) s = onDart k s fun d => dartControlWrite p v (Act.begin d) :=
  dartRegisterForm_eq k p s (n := 2#3) (by decide) v
theorem exec_dartWr3_eq (v : Byte) :
    exec (.dartWr3 k p v) s = onDart k s fun d => dartControlWrite p v (Act.begin d) :=
  dartRegisterForm_eq k p s (n := 3#3) (by decide) v
theorem exec_dartWr4_eq (v : Byte) :
    exec (.dartWr4 k p v) s = onDart k s fun d => dartControlWrite p v (Act.begin d) :=
  dartRegisterForm_eq k p s (n := 4#3) (by decide) v
theorem exec_dartWr5_eq (v : Byte) :
    exec (.dartWr5 k p v) s = onDart k s fun d => dartControlWrite p v (Act.begin d) :=
  dartRegisterForm_eq k p s (n := 5#3) (by decide) v

theorem exec_dartWr6Wr7Discard_eq (v : Byte) :
    exec (.dartWr6Wr7Discard k p v) s = onDart k s fun d => dartControlWrite p v (Act.begin d) := by
  refine congrArg (onDart k s) (funext fun d => ?_)
  split
  · rename_i hn
    rcases hn with hn | hn
    · exact (dartControlWrite_register (x := Act.begin d) hn (by decide)).symm
    · exact (dartControlWrite_register (x := Act.begin d) hn (by decide)).symm
  · rfl

theorem exec_dartReadRr0_eq :
    exec (.dartReadRr0 k p) s = onDart k s fun d => dartControlRead s.readResetsPtr p (Act.begin d) :=
  dartReadForm_eq fun _ h => by rw [dartControlRead_eq, h, readRegister]
theorem exec_dartReadRr1_eq :
    exec (.dartReadRr1 k p) s = onDart k s fun d => dartControlRead s.readResetsPtr p (Act.begin d) :=
  dartReadForm_eq fun _ h => by rw [dartControlRead_eq, h, readRegister]
theorem exec_dartReadRr2_eq :
    exec (.dartReadRr2 k) s = onDart k s fun d => dartControlRead s.readResetsPtr .b (Act.begin d) :=
  dartReadForm_eq fun _ h => by rw [dartControlRead_eq, h, readRegister]

theorem exec_dartReadReserved_eq :
    exec (.dartReadReserved k p) s = onDart k s fun d => dartControlRead s.readResetsPtr p (Act.begin d) := by
  refine congrArg (onDart k s) (funext fun d => ?_)
  have hn : (d.ch p).ptr.toNat = 2 ∧ p = .a → (d.ch p).ptr = 2#3 ∧ p = .a :=
    fun ⟨h2, hp⟩ => ⟨BitVec.eq_of_toNat_eq h2, hp⟩
  dsimp only
  split
  · rename_i h
    rw [dartControlRead_eq, Act.begin_chip, readRegister_reserved (h.imp_right hn)]
  · rfl

theorem exec_pioDataWriteOut_eq (v : Byte) :
    exec (.pioDataWriteOut k p v) s = onPio k s fun c => pioDataWrite p v (Act.begin c) :=
  pioDataWriteForm_eq fun _ h => by rw [pioDataWrite, h]
theorem exec_pioDataWriteIn_eq (v : Byte) :
    exec (.pioDataWriteIn k p v) s = onPio k s fun c => pioDataWrite p v (Act.begin c) :=
  pioDataWriteForm_eq fun _ h => by rw [pioDataWrite, h]
theorem exec_pioDataWriteBidir_eq (v : Byte) :
    exec (.pioDataWriteBidir k p v) s = onPio k s fun c => pioDataWrite p v (Act.begin c) :=
  pioDataWriteForm_eq fun _ h => by rw [pioDataWrite, h]
theorem exec_pioDataWriteBitctl_eq (v : Byte) :
    exec (.pioDataWriteBitctl k p v) s = onPio k s fun c => pioDataWrite p v (Act.begin c) :=
  pioDataWriteForm_eq fun _ h => by rw [pioDataWrite, h]

theorem exec_pioDataReadOut_eq : exec (.pioDataReadOut k p) s = onPio k s fun c => pioDataRead p (Act.begin c) :=
  pioDataReadForm_eq fun _ h => by rw [pioDataRead, h]
theorem exec_pioDataReadIn_eq : exec (.pioDataReadIn k p) s = onPio k s fun c => pioDataRead p (Act.begin c) :=
  pioDataReadForm_eq fun _ h => by rw [pioDataRead, h]
theorem exec_pioDataReadBidir_eq : exec (.pioDataReadBidir k p) s = onPio k s fun c => pioDataRead p (Act.begin c) :=
  pioDataReadForm_eq fun _ h => by rw [pioDataRead, h]
theorem exec_pioDataReadBitctl_eq :
    exec (.pioDataReadBitctl k p) s = onPio k s fun c => pioDataRead p (Act.begin c) :=
  pioDataReadForm_eq fun _ h => by rw [pioDataRead, h]

theorem exec_pioStrobeOut_eq (l : Level) :
    exec (.pioStrobeOut k p l) s = onPio k s fun c => pioStrobe p l (Act.begin c) :=
  pioStrobeForm_eq fun _ h => by simp only [strobeByMode, h]
theorem exec_pioStrobeIn_eq (l : Level) :
    exec (.pioStrobeIn k p l) s = onPio k s fun c => pioStrobe p l (Act.begin c) :=
  pioStrobeForm_eq fun _ h => by simp only [strobeByMode, h]
theorem exec_pioStrobeBitctl_eq (l : Level) :
    exec (.pioStrobeBitctl k p l) s = onPio k s fun c => pioStrobe p l (Act.begin c) :=
  pioStrobeForm_eq fun _ h => by simp only [strobeByMode, h]
theorem exec_pioStrobeBidirA_eq (l : Level) :
    exec (.pioStrobeBidirA k l) s = onPio k s fun c => pioStrobe .a l (Act.begin c) :=
  pioStrobeForm_eq fun _ h => by simp only [strobeByMode, h]
theorem exec_pioStrobeBWhileABidir_eq (l : Level) :
    exec (.pioStrobeBWhileABidir k l) s = onPio k s fun c => pioStrobe .b l (Act.begin c) := by
  refine congrArg (onPio k s) (funext fun c => ?_)
  split
  · rename_i h
    rw [pioStrobe, strobeAction, if_pos ⟨rfl, h⟩]
  · rfl

/-! What a decoded row does, whatever the state it was decoded for. -/

theorem exec_modeRow (m f : BitVec 2) :
    exec (modeRow k p m f) s = onPio k s fun c => pioControlWrite p (modeByte m f) (Act.begin c) := by
  rcases modeField_cases m with rfl | rfl | rfl | rfl
  · exact exec_pioModeOutput_eq k p s f
  · exact exec_pioModeInput_eq k p s f
  · exact exec_pioModeBidir_eq k p s f
  · exact exec_pioModeBitctl_eq k p s f

theorem exec_decodePioControl_normal (b : Byte) :
    exec (decodePioControl k p .normal b) s = onPio k s fun c => pioControlWrite p b (Act.begin c) := by
  have hres := reservedByte_fields b
  rw [decodePioControl_normal]
  rcases low_cases (b.extractLsb' 0 4) with h | h | h | h | h | h | h | h | h
  case inl =>
    rw [h]
    exact (exec_modeRow k p s ..).trans (by rw [modeByte_fields b h])
  case inr.inl =>
    rw [h]
    exact (exec_pioIntControlWord_eq k p s ..).trans (by rw [icwByte_fields b h])
  case inr.inr.inr.inr.inr.inr.inr.inr =>
    rw [controlRow_even k p b h, exec_pioVectorWord_eq, vectorByte_fields b (by rw [← bit0_low, h])]
  all_goals rw [h] at hres ⊢
  · exact (exec_pioReserved1_eq k p s _).trans (by rw [hres])
  · exact (exec_pioReserved3_eq k p s _).trans (by rw [hres])
  · exact (exec_pioReserved5_eq k p s _).trans (by rw [hres])
  · exact (exec_pioReserved9_eq k p s _).trans (by rw [hres])
  · exact (exec_pioReservedB_eq k p s _).trans (by rw [hres])
  · exact (exec_pioReservedD_eq k p s _).trans (by rw [hres])

theorem exec_decodePioControl (w : Cws) (b : Byte) :
    exec (decodePioControl k p w b) s = onPio k s fun c => pioControlWrite p b (Act.begin c) := by
  cases w with
  | normal => exact exec_decodePioControl_normal k p s b
  | setDir => exact exec_pioDirectionByte_eq k p s b
  | setMask => exact exec_pioMaskByte_eq k p s b

theorem exec_decodePioDataWrite (m : Mode) (b : Byte) :
    exec (decodePioDataWrite k p m b) s = onPio k s fun c => pioDataWrite p b (Act.begin c) := by
  cases m with
  | output => exact exec_pioDataWriteOut_eq k p s b
  | input => exact exec_pioDataWriteIn_eq k p s b
  | bidir => exact exec_pioDataWriteBidir_eq k p s b
  | bitctl => exact exec_pioDataWriteBitctl_eq k p s b

theorem exec_decodePioDataRead (m : Mode) :
    exec (decodePioDataRead k p m) s = onPio k s fun c => pioDataRead p (Act.begin c) := by
  cases m with
  | output => exact exec_pioDataReadOut_eq k p s
  | input => exact exec_pioDataReadIn_eq k p s
  | bidir => exact exec_pioDataReadBidir_eq k p s
  | bitctl => exact exec_pioDataReadBitctl_eq k p s

theorem exec_decodeStrobe (modeA modeB : Mode) (l : Level) :
    exec (decodeStrobe k p modeA modeB l) s = onPio k s fun c => pioStrobe p l (Act.begin c) := by
  cases p with
  | a =>
    cases modeA with
    | output => exact exec_pioStrobeOut_eq k .a s l
    | input => exact exec_pioStrobeIn_eq k .a s l
    | bidir => exact exec_pioStrobeBidirA_eq k s l
    | bitctl => exact exec_pioStrobeBitctl_eq k .a s l
  | b =>
    have hown : exec (decodeStrobe k .b .input modeB l) s = onPio k s fun c => pioStrobe .b l (Act.begin c) := by
      cases modeB with
      | output => exact exec_pioStrobeOut_eq k .b s l
      | input => exact exec_pioStrobeIn_eq k .b s l
      | bidir | bitctl => exact exec_pioStrobeBitctl_eq k .b s l
    cases modeA with
    | bidir => exact exec_pioStrobeBWhileABidir_eq k s l
    | output | input | bitctl => exact hown

theorem exec_decodeDartControl (n : BitVec 3) (b : Byte) :
    exec (decodeDartControl k p n b) s = onDart k s fun d => dartControlWrite p b (Act.begin d) := by
  rcases pointer_cases n with rfl | rfl | rfl | rfl | rfl | rfl | rfl | rfl
  · rw [decodeDartControl_wr0, exec_wr0Row_eq, wr0Byte_fields]
  · exact exec_dartWr1_eq k p s b
  · exact exec_dartWr2_eq k p s b
  · exact exec_dartWr3_eq k p s b
  · exact exec_dartWr4_eq k p s b
  · exact exec_dartWr5_eq k p s b
  · exact exec_dartWr6Wr7Discard_eq k p s b
  · exact exec_dartWr6Wr7Discard_eq k p s b

theorem exec_decodeDartControlRead (n : BitVec 3) :
    exec (decodeDartControlRead k p n) s = onDart k s fun d => dartControlRead s.readResetsPtr p (Act.begin d) := by
  rcases pointer_cases n with rfl | rfl | rfl | rfl | rfl | rfl | rfl | rfl
  case inl => exact exec_dartReadRr0_eq k p s
  case inr.inl => exact exec_dartReadRr1_eq k p s
  case inr.inr.inl =>
    cases p with
    | a => exact exec_dartReadReserved_eq k .a s
    | b => exact exec_dartReadRr2_eq k s
  all_goals exact exec_dartReadReserved_eq k p s

end

/-! The access behind an operation. -/

/-- `reset` of a chip of either kind (R380, R383). -/
def resetOn : Chip → Act Chip
  | .pio c => (pioReset (Act.begin c)).lift .pio
  | .dart d => (dartReset (Act.begin d)).lift .dart

/-- What an operation of an agent does to the chip it names, by the spec's dispatch rules alone: the chip's state
selects the rule, and no row is named. -/
def accessOf (r : Request) (s : State) : Out :=
  match r with
  | .busWord k [b] => onChip k s (busReadOn s.readResetsPtr (b.getLsbD 1) (b.getLsbD 0))
  | .busWord k [d, b] => onChip k s (busWriteOn (b.getLsbD 1) (b.getLsbD 0) d)
  | .busWord _ _ => .fault .badBusWord
  | .write k off v => onChip k s fun c =>
      busWriteOn (decodeOffset c.view.order off).1 (decodeOffset c.view.order off).2 v c
  | .read k off => onChip k s fun c =>
      busReadOn s.readResetsPtr (decodeOffset c.view.order off).1 (decodeOffset c.view.order off).2 c
  | .controlWrite k x v => onChip k s (busWriteOn true x.toBit v)
  | .controlRead k x => onChip k s (busReadOn s.readResetsPtr true x.toBit)
  | .dataWrite k x v => onChip k s (busWriteOn false x.toBit v)
  | .dataRead k x => onChip k s (busReadOn s.readResetsPtr false x.toBit)
  | .strobe k p l => onPio k s fun c => pioStrobe p l (Act.begin c)
  | .pollTick k => onPio k s fun c => pollPort .b (pollPort .a (Act.begin c))
  | .receiveData k c v => onDart k s fun d => receiveData c v (Act.begin d)
  | .ctsW k c l => onDart k s fun d => ctsW c l (Act.begin d)
  | .dcdW k c l => onDart k s fun d => dcdW c l (Act.begin d)
  | .riW k c l => onDart k s fun d => riW c l (Act.begin d)
  | .rxcaW k => onDart k s fun d => rxClock .a (Act.begin d)
  | .txcaW k => onDart k s fun d => txClock .a (Act.begin d)
  | .rxtxcbW k => onDart k s fun d => txClock .b (rxClock .b (Act.begin d))
  | .irqState k => onChip k s fun c => (Act.begin c).replyWith (.irq c.irqState)
  | .irqAck k => onChip k s Chip.irqAck
  | .irqReti k => onChip k s Chip.irqReti
  | .chainInt => execChainInt s
  | .chainAck => execChainAck s
  | .chainReti => execChainReti s
  | .reset k => onChip k s resetOn

@[simp] theorem Side.toBit_ofBit (b : Bool) : (Side.ofBit b).toBit = b := by cases b <;> rfl

/-! On a chip that is there an access of its kind is an operation on it. -/

section
variable {s : State} {k : Nat} (x : Side)

theorem onPio_eq_onChip {c : PioChip} (hc : s.hasPio k c) {f : PioChip → Act PioChip} {g : Chip → Act Chip}
    (h : g (.pio c) = (f c).lift .pio) : onPio k s f = onChip k s g := by
  rw [onPio_of_hasPio hc, onChip_of_get hc, h]

theorem onDart_eq_onChip {d : DartChip} (hd : s.hasDart k d) {f : DartChip → Act DartChip} {g : Chip → Act Chip}
    (h : g (.dart d) = (f d).lift .dart) : onDart k s f = onChip k s g := by
  rw [onDart_of_hasDart hd, onChip_of_get hd, h]

@[simp] theorem busWriteOn_control_pio (v : Byte) (c : PioChip) :
    busWriteOn true x.toBit v (.pio c) = (pioControlWrite x v (Act.begin c)).lift .pio := by cases x <;> rfl
@[simp] theorem busWriteOn_control_dart (v : Byte) (d : DartChip) :
    busWriteOn true x.toBit v (.dart d) = (dartControlWrite x v (Act.begin d)).lift .dart := by cases x <;> rfl
@[simp] theorem busWriteOn_data_pio (v : Byte) (c : PioChip) :
    busWriteOn false x.toBit v (.pio c) = (pioDataWrite x v (Act.begin c)).lift .pio := by cases x <;> rfl
@[simp] theorem busWriteOn_data_dart (v : Byte) (d : DartChip) :
    busWriteOn false x.toBit v (.dart d) = (dartDataWrite x v (Act.begin d)).lift .dart := by cases x <;> rfl
@[simp] theorem busReadOn_control_pio (resets : Bool) (c : PioChip) :
    busReadOn resets true x.toBit (.pio c) = (pioDataRead x (Act.begin c)).lift .pio := by cases x <;> rfl
@[simp] theorem busReadOn_control_dart (resets : Bool) (d : DartChip) :
    busReadOn resets true x.toBit (.dart d) = (dartControlRead resets x (Act.begin d)).lift .dart := by
  cases x <;> rfl
@[simp] theorem busReadOn_data_pio (resets : Bool) (c : PioChip) :
    busReadOn resets false x.toBit (.pio c) = (pioDataRead x (Act.begin c)).lift .pio := by cases x <;> rfl
@[simp] theorem busReadOn_data_dart (resets : Bool) (d : DartChip) :
    busReadOn resets false x.toBit (.dart d) = (dartDataRead x (Act.begin d)).lift .dart := by cases x <;> rfl

end

/-! A decoded operation does what its access does. -/

/-- What is decoded at a chip was decoded from what that chip shows. -/
theorem withChip_ok {s : State} {k : Nat} {f : ChipView → Except Reject Instr} {i : Instr}
    (h : withChip s.views k f = .ok i) : ∃ c, s.chips[k]? = some c ∧ f c.view = .ok i := by
  rw [withChip, State.views_getElem?] at h
  cases hc : s.chips[k]? with
  | none => simp [hc] at h
  | some c => exact ⟨c, rfl, by simpa [hc] using h⟩

/-- An operation of one kind of chip is decoded from its name alone. -/
theorem onlyPio_ok {s : State} {k : Nat} {i j : Instr} (h : onlyPio s.views k j = .ok i) : i = j := by
  obtain ⟨c, -, hi⟩ := withChip_ok h
  cases c with
  | pio c => exact (Except.ok.inj hi).symm
  | dart d => cases hi

theorem onlyDart_ok {s : State} {k : Nat} {i j : Instr} (h : onlyDart s.views k j = .ok i) : i = j := by
  obtain ⟨c, -, hi⟩ := withChip_ok h
  cases c with
  | pio c => cases hi
  | dart d => exact (Except.ok.inj hi).symm

theorem exec_of_decodeBusWord {s : State} {k : Nat} {bs : List Byte} {i : Instr} (h : decodeBusWord k bs = .ok i) :
    exec i s = accessOf (.busWord k bs) s := by
  unfold decodeBusWord at h
  split at h
  · split at h <;> cases h
    rfl
  · split at h <;> cases h
    rfl
  · cases h

theorem exec_of_decodeRequest {s : State} {r : Request} {i : Instr} (h : decodeRequest s.views r = .ok i) :
    exec i s = accessOf r s := by
  cases r with
  | busWord k bs =>
    obtain ⟨c, -, hi⟩ := withChip_ok h
    exact exec_of_decodeBusWord hi
  | write k off v =>
    obtain ⟨c, hc, hi⟩ := withChip_ok h
    cases hi
    rw [accessOf, onChip_of_get hc]
    exact onChip_of_get hc _
  | read k off =>
    obtain ⟨c, hc, hi⟩ := withChip_ok h
    cases hi
    rw [accessOf, onChip_of_get hc]
    exact onChip_of_get hc _
  | controlWrite k x v =>
    obtain ⟨c, hc, hi⟩ := withChip_ok h
    cases c with
    | pio c =>
      cases hi
      exact (exec_decodePioControl ..).trans (onPio_eq_onChip hc (busWriteOn_control_pio ..))
    | dart d =>
      cases hi
      exact (exec_decodeDartControl ..).trans (onDart_eq_onChip hc (busWriteOn_control_dart ..))
  | controlRead k x =>
    obtain ⟨c, hc, hi⟩ := withChip_ok h
    cases c with
    | pio c =>
      cases hi
      exact onPio_eq_onChip hc (busReadOn_control_pio ..)
    | dart d =>
      cases hi
      exact (exec_decodeDartControlRead ..).trans (onDart_eq_onChip hc (busReadOn_control_dart ..))
  | dataWrite k x v =>
    obtain ⟨c, hc, hi⟩ := withChip_ok h
    cases c with
    | pio c =>
      cases hi
      exact (exec_decodePioDataWrite ..).trans (onPio_eq_onChip hc (busWriteOn_data_pio ..))
    | dart d =>
      cases hi
      exact onDart_eq_onChip hc (busWriteOn_data_dart ..)
  | dataRead k x =>
    obtain ⟨c, hc, hi⟩ := withChip_ok h
    cases c with
    | pio c =>
      cases hi
      exact (exec_decodePioDataRead ..).trans (onPio_eq_onChip hc (busReadOn_data_pio ..))
    | dart d =>
      cases hi
      exact onDart_eq_onChip hc (busReadOn_data_dart ..)
  | strobe k p l =>
    obtain ⟨c, -, hi⟩ := withChip_ok h
    cases c with
    | pio c =>
      cases hi
      exact exec_decodeStrobe ..
    | dart d => cases hi
  | reset k =>
    obtain ⟨c, hc, hi⟩ := withChip_ok h
    cases c with
    | pio c =>
      cases hi
      exact onPio_eq_onChip hc rfl
    | dart d =>
      cases hi
      exact onDart_eq_onChip hc rfl
  | pollTick k =>
    cases onlyPio_ok h
    rfl
  | receiveData | ctsW | dcdW | riW | rxcaW | txcaW | rxtxcbW =>
    cases onlyDart_ok h
    rfl
  | irqState | irqAck | irqReti =>
    obtain ⟨c, -, hi⟩ := withChip_ok h
    cases hi
    rfl
  | chainInt | chainAck | chainReti =>
    cases h
    rfl

/-! A row does what the access it is issued as does, whatever the state of its chip. -/

section
variable {s : State} {i : Instr} {k : Nat} {x : Side} {v : Byte}

theorem controlWrite_of_onPio (h : (Operand.pioChip k).inChain s.views = true)
    (hi : exec i s = onPio k s fun c => pioControlWrite x v (Act.begin c)) :
    exec i s = accessOf (.controlWrite k x v) s := by
  obtain ⟨c, hc⟩ := inChain_pioChip.mp h
  exact hi.trans (onPio_eq_onChip hc (busWriteOn_control_pio ..))

theorem dataWrite_of_onPio (h : (Operand.pioChip k).inChain s.views = true)
    (hi : exec i s = onPio k s fun c => pioDataWrite x v (Act.begin c)) :
    exec i s = accessOf (.dataWrite k x v) s := by
  obtain ⟨c, hc⟩ := inChain_pioChip.mp h
  exact hi.trans (onPio_eq_onChip hc (busWriteOn_data_pio ..))

theorem controlRead_of_onPio (h : (Operand.pioChip k).inChain s.views = true)
    (hi : exec i s = onPio k s fun c => pioDataRead x (Act.begin c)) :
    exec i s = accessOf (.controlRead k x) s := by
  obtain ⟨c, hc⟩ := inChain_pioChip.mp h
  exact hi.trans (onPio_eq_onChip hc (busReadOn_control_pio ..))

theorem dataRead_of_onPio (h : (Operand.pioChip k).inChain s.views = true)
    (hi : exec i s = onPio k s fun c => pioDataRead x (Act.begin c)) :
    exec i s = accessOf (.dataRead k x) s := by
  obtain ⟨c, hc⟩ := inChain_pioChip.mp h
  exact hi.trans (onPio_eq_onChip hc (busReadOn_data_pio ..))

theorem controlWrite_of_onDart (h : (Operand.dartChip k).inChain s.views = true)
    (hi : exec i s = onDart k s fun d => dartControlWrite x v (Act.begin d)) :
    exec i s = accessOf (.controlWrite k x v) s := by
  obtain ⟨d, hd⟩ := inChain_dartChip.mp h
  exact hi.trans (onDart_eq_onChip hd (busWriteOn_control_dart ..))

theorem dataWrite_of_onDart (h : (Operand.dartChip k).inChain s.views = true)
    (hi : exec i s = onDart k s fun d => dartDataWrite x v (Act.begin d)) :
    exec i s = accessOf (.dataWrite k x v) s := by
  obtain ⟨d, hd⟩ := inChain_dartChip.mp h
  exact hi.trans (onDart_eq_onChip hd (busWriteOn_data_dart ..))

theorem controlRead_of_onDart (h : (Operand.dartChip k).inChain s.views = true)
    (hi : exec i s = onDart k s fun d => dartControlRead s.readResetsPtr x (Act.begin d)) :
    exec i s = accessOf (.controlRead k x) s := by
  obtain ⟨d, hd⟩ := inChain_dartChip.mp h
  exact hi.trans (onDart_eq_onChip hd (busReadOn_control_dart ..))

theorem dataRead_of_onDart (h : (Operand.dartChip k).inChain s.views = true)
    (hi : exec i s = onDart k s fun d => dartDataRead x (Act.begin d)) :
    exec i s = accessOf (.dataRead k x) s := by
  obtain ⟨d, hd⟩ := inChain_dartChip.mp h
  exact hi.trans (onDart_eq_onChip hd (busReadOn_data_dart ..))

end

theorem exec_of_inChain {s : State} {i : Instr} (h : i.operand.inChain s.views = true) :
    exec i s = accessOf (requestOf i) s := by
  cases i with
  | pioVectorWord k p v => exact controlWrite_of_onPio h (exec_pioVectorWord_eq k p s v)
  | pioModeOutput k p f => exact controlWrite_of_onPio h (exec_pioModeOutput_eq k p s f)
  | pioModeInput k p f => exact controlWrite_of_onPio h (exec_pioModeInput_eq k p s f)
  | pioModeBidir k p f => exact controlWrite_of_onPio h (exec_pioModeBidir_eq k p s f)
  | pioModeBitctl k p f => exact controlWrite_of_onPio h (exec_pioModeBitctl_eq k p s f)
  | pioIntControlWord k p ei ao hl mf => exact controlWrite_of_onPio h (exec_pioIntControlWord_eq k p s ei ao hl mf)
  | pioReserved1 k p f => exact controlWrite_of_onPio h (exec_pioReserved1_eq k p s f)
  | pioReserved3 k p f => exact controlWrite_of_onPio h (exec_pioReserved3_eq k p s f)
  | pioReserved5 k p f => exact controlWrite_of_onPio h (exec_pioReserved5_eq k p s f)
  | pioReserved9 k p f => exact controlWrite_of_onPio h (exec_pioReserved9_eq k p s f)
  | pioReservedB k p f => exact controlWrite_of_onPio h (exec_pioReservedB_eq k p s f)
  | pioReservedD k p f => exact controlWrite_of_onPio h (exec_pioReservedD_eq k p s f)
  | pioDirectionByte k p v => exact controlWrite_of_onPio h (exec_pioDirectionByte_eq k p s v)
  | pioMaskByte k p v => exact controlWrite_of_onPio h (exec_pioMaskByte_eq k p s v)
  | pioDataWriteOut k p v => exact dataWrite_of_onPio h (exec_pioDataWriteOut_eq k p s v)
  | pioDataWriteIn k p v => exact dataWrite_of_onPio h (exec_pioDataWriteIn_eq k p s v)
  | pioDataWriteBidir k p v => exact dataWrite_of_onPio h (exec_pioDataWriteBidir_eq k p s v)
  | pioDataWriteBitctl k p v => exact dataWrite_of_onPio h (exec_pioDataWriteBitctl_eq k p s v)
  | pioDataReadOut k p => exact dataRead_of_onPio h (exec_pioDataReadOut_eq k p s)
  | pioDataReadIn k p => exact dataRead_of_onPio h (exec_pioDataReadIn_eq k p s)
  | pioDataReadBidir k p => exact dataRead_of_onPio h (exec_pioDataReadBidir_eq k p s)
  | pioDataReadBitctl k p => exact dataRead_of_onPio h (exec_pioDataReadBitctl_eq k p s)
  | pioControlRead k p => exact controlRead_of_onPio h rfl
  | pioStrobeOut k p l => exact exec_pioStrobeOut_eq k p s l
  | pioStrobeIn k p l => exact exec_pioStrobeIn_eq k p s l
  | pioStrobeBitctl k p l => exact exec_pioStrobeBitctl_eq k p s l
  | pioStrobeBidirA k l => exact exec_pioStrobeBidirA_eq k s l
  | pioStrobeBWhileABidir k l => exact exec_pioStrobeBWhileABidir_eq k s l
  | dartWr0Null k c f n => exact controlWrite_of_onDart h (exec_wr0Row_eq k c s 0#3 f n)
  | dartWr0Cmd1 k c f n => exact controlWrite_of_onDart h (exec_wr0Row_eq k c s 1#3 f n)
  | dartWr0ResetExtStatus k c f n => exact controlWrite_of_onDart h (exec_wr0Row_eq k c s 2#3 f n)
  | dartWr0ChannelReset k c f n => exact controlWrite_of_onDart h (exec_wr0Row_eq k c s 3#3 f n)
  | dartWr0EnableIntNextRx k c f n => exact controlWrite_of_onDart h (exec_wr0Row_eq k c s 4#3 f n)
  | dartWr0Cmd5 k c f n => exact controlWrite_of_onDart h (exec_wr0Row_eq k c s 5#3 f n)
  | dartWr0ErrorReset k c f n => exact controlWrite_of_onDart h (exec_wr0Row_eq k c s 6#3 f n)
  | dartWr0ReturnFromInt k c f n => exact controlWrite_of_onDart h (exec_wr0Row_eq k c s 7#3 f n)
  | dartWr1 k c v => exact controlWrite_of_onDart h (exec_dartWr1_eq k c s v)
  | dartWr2 k c v => exact controlWrite_of_onDart h (exec_dartWr2_eq k c s v)
  | dartWr3 k c v => exact controlWrite_of_onDart h (exec_dartWr3_eq k c s v)
  | dartWr4 k c v => exact controlWrite_of_onDart h (exec_dartWr4_eq k c s v)
  | dartWr5 k c v => exact controlWrite_of_onDart h (exec_dartWr5_eq k c s v)
  | dartWr6Wr7Discard k c v => exact controlWrite_of_onDart h (exec_dartWr6Wr7Discard_eq k c s v)
  | dartReadRr0 k c => exact controlRead_of_onDart h (exec_dartReadRr0_eq k c s)
  | dartReadRr1 k c => exact controlRead_of_onDart h (exec_dartReadRr1_eq k c s)
  | dartReadRr2 k => exact controlRead_of_onDart h (exec_dartReadRr2_eq k s)
  | dartReadReserved k c => exact controlRead_of_onDart h (exec_dartReadReserved_eq k c s)
  | dartDataWrite k c v => exact dataWrite_of_onDart h rfl
  | dartDataRead k c => exact dataRead_of_onDart h rfl
  | resetPio k =>
    obtain ⟨c, hc⟩ := inChain_pioChip.mp h
    exact onPio_eq_onChip hc rfl
  | resetDart k =>
    obtain ⟨d, hd⟩ := inChain_dartChip.mp h
    exact onDart_eq_onChip hd rfl
  | busWrite k selC selB d => exact exec_of_decodeBusWord (decodeBusWord_busWrite k selC selB d)
  | busRead k selC selB => exact exec_of_decodeBusWord (decodeBusWord_busRead k selC selB)
  | _ => rfl

/-! Steps. -/

theorem step_agent {s : State} {r : Request} {rest : List Input} {i : Instr} (hs : s.inputs = .agent r :: rest)
    (hi : decodeRequest s.views r = .ok i) : step s = exec i (s.withInputs rest) := by
  simp only [step, hs, runRequest, State.withInputs_views, hi]

theorem step_env {s : State} {e : EnvEvent} {rest : List Input} (hs : s.inputs = .env e :: rest) :
    step s = perform e (s.withInputs rest) := by
  simp only [step, hs]

/-- An offset access is decoded by the chip's address order (R82). -/
theorem decodeRequest_write {s : State} {k : Nat} {c : Chip} (hc : s.chips[k]? = some c) (off : BitVec 2) (v : Byte) :
    decodeRequest s.views (.write k off v) =
      .ok (.busWrite k (decodeOffset c.view.order off).1 (decodeOffset c.view.order off).2 v) := by
  simp [decodeRequest, withChip, hc]

theorem decodeRequest_read {s : State} {k : Nat} {c : Chip} (hc : s.chips[k]? = some c) (off : BitVec 2) :
    decodeRequest s.views (.read k off) =
      .ok (.busRead k (decodeOffset c.view.order off).1 (decodeOffset c.view.order off).2) := by
  simp [decodeRequest, withChip, hc]

/-! A byte at a register of a chip that is there always decodes (R125). -/

theorem decodeRequest_controlWrite {s : State} {k : Nat} {c : Chip} (hc : s.chips[k]? = some c) (x : Side) (v : Byte) :
    ∃ i, decodeRequest s.views (.controlWrite k x v) = .ok i := by
  cases c with
  | pio c => exact ⟨_, by simp [decodeRequest, withChip, hc, Chip.view, ChipView.controlSlot, decodeBytes]; rfl⟩
  | dart d => exact ⟨_, by simp [decodeRequest, withChip, hc, Chip.view, ChipView.controlSlot, decodeBytes]; rfl⟩

theorem decodeRequest_dataWrite {s : State} {k : Nat} {c : Chip} (hc : s.chips[k]? = some c) (x : Side) (v : Byte) :
    ∃ i, decodeRequest s.views (.dataWrite k x v) = .ok i := by
  cases c with
  | pio c => exact ⟨_, by simp [decodeRequest, withChip, hc, Chip.view, ChipView.dataSlot, decodeBytes]; rfl⟩
  | dart d => exact ⟨_, by simp [decodeRequest, withChip, hc, Chip.view, ChipView.dataSlot, decodeBytes]; rfl⟩

theorem decodeRequest_controlRead {s : State} {k : Nat} {c : Chip} (hc : s.chips[k]? = some c) (x : Side) :
    ∃ i, decodeRequest s.views (.controlRead k x) = .ok i := by
  cases c with
  | pio c => exact ⟨_, by simp [decodeRequest, withChip, hc, Chip.view]; rfl⟩
  | dart d => exact ⟨_, by simp [decodeRequest, withChip, hc, Chip.view]; rfl⟩

theorem decodeRequest_dataRead {s : State} {k : Nat} {c : Chip} (hc : s.chips[k]? = some c) (x : Side) :
    ∃ i, decodeRequest s.views (.dataRead k x) = .ok i := by
  cases c with
  | pio c => exact ⟨_, by simp [decodeRequest, withChip, hc, Chip.view]; rfl⟩
  | dart d => exact ⟨_, by simp [decodeRequest, withChip, hc, Chip.view]; rfl⟩

/-! The obligations. -/

/-- Settles O4: the chip's order decides which offset bit is which select bit. -/
theorem offsetAccessFollowsAddrOrder : Obligations.OffsetAccessFollowsAddrOrder := by
  intro s k c off v rest hc
  have hwrite := fun hs : s.inputs = .agent (.write k off v) :: rest => step_agent hs (decodeRequest_write hc off v)
  have hread := fun hs : s.inputs = .agent (.read k off) :: rest => step_agent hs (decodeRequest_read hc off)
  constructor
  · intro ho
    rw [ho] at hwrite hread
    exact ⟨hwrite, hread⟩
  · intro ho
    rw [ho] at hwrite hread
    exact ⟨hwrite, hread⟩

/-- Settles O5: a step decodes the first input, and decoding gives back the row a selected instruction is issued as. -/
theorem stepRunsDecodedInstruction : Obligations.StepRunsDecodedInstruction := by
  refine ⟨fun s r rest i hs hi => step_agent hs hi, fun s rest i hi hs => ?_, fun s hs => ?_⟩
  · exact step_agent hs (requestRoundTrip s.views i hi)
  · simp only [step, hs]

/-- Settles O6: the reset state's first chip is a PIO whose port A is in NORMAL, which is the context of a bare word. -/
theorem tableWordRunsNext : Obligations.TableWordRunsNext := by
  rintro nbits w i (rfl | rfl) hi
  · have hdec : decodeRequest State.reset.views (.controlWrite 0 .a (BitVec.ofNat 8 w)) = .ok i :=
      congrArg Except.ok (Option.some.inj hi)
    exact step_agent (s := State.reset.withFetchWord 8 w) (rest := []) rfl hdec
  · have hdec : decodeRequest State.reset.views (.busWord 0 (bytesOf 2 w)) = .ok i := by
      change decodeBusWord 0 (bytesOf 2 w) = .ok i
      change (decodeBusWord 0 (bytesOf 2 w)).toOption = some i at hi
      cases hd : decodeBusWord 0 (bytesOf 2 w) with
      | ok j => simpa [hd, Except.toOption] using hi
      | error e => simp [hd, Except.toOption] at hi
    exact step_agent (s := State.reset.withFetchWord 16 w) (rest := []) rfl hdec

/-- What a decoded access does to the chip it finds. -/
theorem exec_decoded_onChip {s : State} {k : Nat} {c : Chip} {r : Request} {i : Instr} {f : Chip → Act Chip}
    (hc : s.chips[k]? = some c) (hi : decodeRequest s.views r = .ok i) (hr : accessOf r s = onChip k s f) :
    exec i s = .next (s.commit k (f c)) := by
  rw [exec_of_decodeRequest hi, hr, onChip_of_get hc]

/-- Settles O7: the bus access and the decoded row are the same access of the same register. -/
theorem busAccessPerformsSelectedRow : Obligations.BusAccessPerformsSelectedRow := by
  intro s k selC selB v hk
  have hc : s.chips[k]? = some s.chips[k] := List.getElem?_eq_getElem hk
  generalize s.chips[k] = c at hc
  have hx : (if selB then Side.b else .a) = Side.ofBit selB := rfl
  simp only [hx]
  constructor
  · cases selC with
    | true =>
      obtain ⟨i, hi⟩ := decodeRequest_controlWrite hc (Side.ofBit selB) v
      exact ⟨i, _, hi, onChip_of_get hc _, exec_decoded_onChip hc hi (by rw [accessOf, Side.toBit_ofBit])⟩
    | false =>
      obtain ⟨i, hi⟩ := decodeRequest_dataWrite hc (Side.ofBit selB) v
      exact ⟨i, _, hi, onChip_of_get hc _, exec_decoded_onChip hc hi (by rw [accessOf, Side.toBit_ofBit])⟩
  · cases selC with
    | true =>
      obtain ⟨i, hi⟩ := decodeRequest_controlRead hc (Side.ofBit selB)
      exact ⟨i, _, hi, onChip_of_get hc _, exec_decoded_onChip hc hi (by rw [accessOf, Side.toBit_ofBit])⟩
    | false =>
      obtain ⟨i, hi⟩ := decodeRequest_dataRead hc (Side.ofBit selB)
      exact ⟨i, _, hi, onChip_of_get hc _, exec_decoded_onChip hc hi (by rw [accessOf, Side.toBit_ofBit])⟩

/-- Settles O8: both instructions do what the access does that the first is issued as. -/
theorem unselectedFormActsAsItsAccess : Obligations.UnselectedFormActsAsItsAccess := by
  intro s i j hi hj
  rw [exec_of_inChain (operand_inChain_of_wellFormed hi), exec_of_decodeRequest hj]

/-- Settles O10: an operand outside the chain names a position, and the meaning looks for its chip there first. -/
theorem misaddressedOperationStops : Obligations.MisaddressedOperationStops := by
  intro s i h
  have hacts := exec_actsIn i s
  cases ho : i.operand with
  | wholeChain => simp [ho, Operand.inChain] at h
  | anyChip k =>
    rw [ho] at h hacts
    obtain ⟨f, hf⟩ := hacts
    refine ⟨k, rfl, fun hk => hf ▸ onChip_absent hk f, fun hk => ?_⟩
    exact absurd (inChain_anyChip.mpr ⟨_, List.getElem?_eq_getElem hk⟩) (by simp [h])
  | pioChip k =>
    rw [ho] at h hacts
    obtain ⟨f, hf⟩ := hacts
    refine ⟨k, rfl, fun hk => hf ▸ onPio_absent hk f, fun hk => ?_⟩
    cases hc : s.chips[k] with
    | pio c => exact absurd (inChain_pioChip.mpr ⟨c, hc ▸ List.getElem?_eq_getElem hk⟩) (by simp [h])
    | dart d => exact hf ▸ onPio_of_hasDart (hc ▸ List.getElem?_eq_getElem hk) f
  | dartChip k =>
    rw [ho] at h hacts
    obtain ⟨f, hf⟩ := hacts
    refine ⟨k, rfl, fun hk => hf ▸ onDart_absent hk f, fun hk => ?_⟩
    cases hc : s.chips[k] with
    | pio c => exact hf ▸ onDart_of_hasPio (hc ▸ List.getElem?_eq_getElem hk) f
    | dart d => exact absurd (inChain_dartChip.mpr ⟨d, hc ▸ List.getElem?_eq_getElem hk⟩) (by simp [h])

/-- A tick of a timer that is there is one pulse (R286). -/
theorem timerTick_of_rate {s : State} {k : Nat} {d : DartChip} (hd : s.hasDart k d) {rate : DartConfig → Nat}
    (hr : rate d.cfg ≠ 0) (pulse : Act DartChip → Act DartChip) :
    timerTick k rate pulse s = .next (s.commit k ((pulse (Act.begin d)).lift .dart)) := by
  simp only [timerTick, show s.chips[k]? = some (.dart d) from hd, if_neg hr]
  exact onDart_of_hasDart hd _

/-- Settles O11: a step performs the environment's change; a timer there is ticks one pulse. -/
theorem environmentInputs : Obligations.EnvironmentInputs := by
  refine ⟨fun s k c p v rest hc hs => ?_, fun s k d c l rest hd hs => ?_, fun s k d c rest hd =>
    ⟨fun hs hr => ?_, fun hs hr => ?_⟩⟩
  · rw [step_env hs]
    simp only [perform, setPins, State.withInputs_chips, show s.chips[k]? = some (.pio c) from hc]
    rfl
  · rw [step_env hs]
    simp only [perform, setRxd, State.withInputs_chips, show s.chips[k]? = some (.dart d) from hd]
    rfl
  · rw [step_env hs]
    exact timerTick_of_rate (s := s.withInputs rest) (rate := fun g => DartConfig.rxHz g c) hd hr _
  · rw [step_env hs]
    exact timerTick_of_rate (s := s.withInputs rest) (rate := fun g => DartConfig.txHz g c) hd hr _

end Sys2Proof.Machine
end

section
/-! PIO: the mode words, the interrupt control word, the reserved words, control reads and the Bidirectional data path
(R153 to R159, R165, R173, R178). -/

-- One proof at a time: the check then needs fewer threads, each of which takes part of its memory.
set_option Elab.async false

namespace Sys2Proof.Machine

open Sys2Proof

/-! What each rule does to an operation in progress. -/

section
variable (p : Side) (x : Act PioChip)

@[simp] theorem modeOutput_chip :
    (modeOutput p x).chip = x.chip.withPort p fun q => { q with mode := .output, rdy := true } := by
  simp [modeOutput]
@[simp] theorem modeOutput_out : (modeOutput p x).out = x.out ++ [.ready p false, .ready p true] := by
  simp [modeOutput]
@[simp] theorem modeOutput_reply : (modeOutput p x).reply = x.reply := rfl

@[simp] theorem modeInput_chip : (modeInput p x).chip = x.chip.withPort p fun q => { q with mode := .input } := rfl
@[simp] theorem modeInput_out : (modeInput p x).out = x.out := rfl
@[simp] theorem modeInput_reply : (modeInput p x).reply = x.reply := rfl

/-- Port B ignores the word (R155). -/
@[simp] theorem modeBidir_chip :
    (modeBidir p x).chip = if p = .a then x.chip.withPort .a fun q => { q with mode := .bidir } else x.chip := by
  cases p <;> rfl
@[simp] theorem modeBidir_out : (modeBidir p x).out = x.out := by cases p <;> rfl
@[simp] theorem modeBidir_reply : (modeBidir p x).reply = x.reply := by cases p <;> rfl

@[simp] theorem modeBitctl_chip :
    (modeBitctl p x).chip = x.chip.withPort p fun q => { q with mode := .bitctl, cws := .setDir } := rfl
@[simp] theorem modeBitctl_out : (modeBitctl p x).out = x.out := rfl
@[simp] theorem modeBitctl_reply : (modeBitctl p x).reply = x.reply := rfl

variable (v : Byte)

@[simp] theorem intControlWord_chip :
    (intControlWord p v x).chip =
      if v.getLsbD 4 = true then
        x.chip.withPort p fun q => { q with icw := v, cws := .setMask, src := q.src.withdrawn }
      else (x.chip.withPort p fun q => { q with icw := v, ie := v.getLsbD 7 }).checkInterrupt := by
  unfold intControlWord
  split <;> simp
@[simp] theorem intControlWord_out : (intControlWord p v x).out = x.out := by
  unfold intControlWord; split <;> rfl
@[simp] theorem intControlWord_reply : (intControlWord p v x).reply = x.reply := by
  unfold intControlWord; split <;> rfl

/-- Latching a byte moves no strobe, so the level that decides is the one before the write (R173). -/
@[simp] theorem dataWriteBidir_chip :
    (dataWriteBidir v x).chip = x.chip.withPort .a fun q => { q with outLatch := v, rdy := true } := by
  unfold dataWriteBidir
  dsimp only
  split <;> rfl
@[simp] theorem dataWriteBidir_out :
    (dataWriteBidir v x).out =
      x.out ++ ([.ready .a false] ++ (if x.chip.a.stb = false then [.portWrite .a v] else []) ++ [.ready .a true]) := by
  unfold dataWriteBidir
  cases h : x.chip.a.stb <;> simp [h]
@[simp] theorem dataWriteBidir_reply : (dataWriteBidir v x).reply = x.reply := by
  unfold dataWriteBidir
  dsimp only
  split <;> rfl

@[simp] theorem dataReadBidir_chip :
    (dataReadBidir x).chip = x.chip.withPort .b fun q => { q with rdy := true } := rfl
@[simp] theorem dataReadBidir_out : (dataReadBidir x).out = x.out ++ [.ready .b false, .ready .b true] := by
  simp [dataReadBidir]
@[simp] theorem dataReadBidir_reply : (dataReadBidir x).reply = .byte x.chip.a.seen := rfl

end

/-- The two forms of the interrupt control word, as the bits stand in the byte (R157). -/
theorem icwByte_mask (ei ao hl : Bool) :
    icwByte ei ao hl true = BitVec.ofBool ei ++ BitVec.ofBool ao ++ BitVec.ofBool hl ++ 0b10111#5 := by
  revert ei ao hl; decide

theorem icwByte_noMask (ei ao hl : Bool) :
    icwByte ei ao hl false = BitVec.ofBool ei ++ BitVec.ofBool ao ++ BitVec.ofBool hl ++ 0b00111#5 := by
  revert ei ao hl; decide

/-! The obligations. -/

/-- Settles O13: NORMAL selects each mode word's own rule. -/
theorem modeWordsSelectMode : Obligations.ModeWordsSelectMode := by
  intro s k c p f hc hw
  refine ⟨?_, ?_, ?_, ?_⟩
  · refine (pioControlForm_selected hc hw (own := modeOutput p) _ (modeOutput_reply ..)).trans ?_
    rw [modeOutput_chip, modeOutput_out, Act.begin_chip, Act.begin_out, List.nil_append]
  · refine (pioControlForm_selected hc hw (own := modeInput p) _ (modeInput_reply ..)).trans ?_
    rw [modeInput_chip, modeInput_out, Act.begin_chip, Act.begin_out]
  · refine (pioControlForm_selected hc hw (own := modeBidir p) _ (modeBidir_reply ..)).trans ?_
    rw [modeBidir_chip, modeBidir_out, Act.begin_chip, Act.begin_out]
  · refine (pioControlForm_selected hc hw (own := modeBitctl p) _ (modeBitctl_reply ..)).trans ?_
    rw [modeBitctl_chip, modeBitctl_out, Act.begin_chip, Act.begin_out]

/-- Settles O14: bit 4 of the word decides between waiting for the mask and the re-evaluation. -/
theorem intControlWordStoresAndReevaluates : Obligations.IntControlWordStoresAndReevaluates := by
  intro s k c p ei ao hl hc hw
  constructor
  · refine (pioControlForm_selected hc hw (own := intControlWord p (icwByte ei ao hl true)) _
      (intControlWord_reply ..)).trans ?_
    rw [intControlWord_chip, intControlWord_out, if_pos (icwByte_bit4 ..), icwByte_mask, Act.begin_chip, Act.begin_out]
    rfl
  · refine (pioControlForm_selected hc hw (own := intControlWord p (icwByte ei ao hl false)) _
      (intControlWord_reply ..)).trans ?_
    rw [intControlWord_chip, intControlWord_out, if_neg (by rw [icwByte_bit4]; decide), icwByte_bit7, icwByte_noMask,
      Act.begin_chip, Act.begin_out]

/-- A reserved word leaves the chip as it was (R159). -/
theorem reservedForm_selected {s : State} {k : Nat} {c : PioChip} {p : Side} (hc : s.hasPio k c)
    (hw : (c.port p).cws = .normal) (v : Byte) :
    pioControlForm k p .normal v s reservedWord = .next { s with answer := .none } := by
  rw [pioControlForm_selected hc hw v (own := reservedWord) rfl, reservedWord, Act.begin_chip, Act.begin_out,
    State.afterPio_unchanged hc]

/-- Settles O15: all six are the form that does nothing. -/
theorem reservedWordsChangeNothing : Obligations.ReservedWordsChangeNothing := by
  intro s k c p f hc hw
  exact ⟨reservedForm_selected hc hw _, reservedForm_selected hc hw _, reservedForm_selected hc hw _,
    reservedForm_selected hc hw _, reservedForm_selected hc hw _, reservedForm_selected hc hw _⟩

/-- Settles O18: the control read dispatches on the mode as the data read does. -/
theorem pioControlReadIsDataRead : Obligations.PioControlReadIsDataRead := by
  intro s k c p hc
  have hread : ∀ {own : Act PioChip → Act PioChip} {v : Byte}, pioDataRead p (Act.begin c) = own (Act.begin c) →
      (own (Act.begin c)).reply = .byte v →
      exec (.pioControlRead k p) s =
        .next (s.afterPio k (own (Act.begin c)).chip (own (Act.begin c)).out (.byte v)) := by
    intro own v hown hr
    refine (onPio_afterPio hc (f := fun c => pioControlRead p (Act.begin c)) hown (by simp [hr])).trans ?_
    rw [hr, Reply.toAnswer_byte]
  refine ⟨fun hm => ?_, fun hm => ?_, fun hm => ?_, fun hm => ?_⟩
  · rw [hread (own := dataReadOut p) (by simp only [pioDataRead, Act.begin_chip, hm]) (dataReadOut_reply ..),
      dataReadOut_chip, dataReadOut_out, Act.begin_chip, Act.begin_out]
  · rw [hread (own := dataReadIn p) (by simp only [pioDataRead, Act.begin_chip, hm]) (dataReadIn_reply ..),
      dataReadIn_chip, dataReadIn_out, Act.begin_chip, Act.begin_out, List.nil_append]
  · rw [hread (own := dataReadBidir) (by simp only [pioDataRead, Act.begin_chip, hm]) (dataReadBidir_reply ..),
      dataReadBidir_chip, dataReadBidir_out, Act.begin_chip, Act.begin_out, List.nil_append, Port.seen]
  · rw [hread (own := dataReadBitctl p) (by simp only [pioDataRead, Act.begin_chip, hm]) (dataReadBitctl_reply ..),
      dataReadBitctl_chip, dataReadBitctl_out, Act.begin_chip, Act.begin_out, Port.seen]

/-- Settles O21: Bidirectional mode selects R173 for the write and R178 for the read. -/
theorem bidirectionalDataPath : Obligations.BidirectionalDataPath := by
  intro s k c v hc hm
  constructor
  · refine (pioDataWriteForm_selected (p := .a) hc hm v (own := dataWriteBidir v) (dataWriteBidir_reply ..)).trans ?_
    rw [dataWriteBidir_chip, dataWriteBidir_out, Act.begin_chip, Act.begin_out, List.nil_append]
    rfl
  · refine (pioDataReadForm_selected (p := .a) hc hm (own := dataReadBidir) (dataReadBidir_reply ..)).trans ?_
    rw [dataReadBidir_chip, dataReadBidir_out, Act.begin_chip, Act.begin_out, List.nil_append, Port.seen]
    rfl

end Sys2Proof.Machine
end

section
/-! PIO: strobes and the Bit-Control poll (R190 to R202). -/

-- One proof at a time: the check then needs fewer threads, each of which takes part of its memory.
set_option Elab.async false

namespace Sys2Proof.Machine

open Sys2Proof

/-! What each rule does to an operation in progress. -/

@[simp] theorem Act.trigger_chip (x : Act PioChip) (p : Side) : (x.trigger p).chip = x.chip.requested p := rfl
@[simp] theorem Act.trigger_out (x : Act PioChip) (p : Side) : (x.trigger p).out = x.out := rfl
@[simp] theorem Act.trigger_reply (x : Act PioChip) (p : Side) : (x.trigger p).reply = x.reply := rfl

section
variable {p : Side} {l : Level} {x : Act PioChip}

@[simp] theorem storeStrobe_chip : (storeStrobe p l x).chip = x.chip.withPort p fun q => { q with stb := l } := rfl
@[simp] theorem storeStrobe_out : (storeStrobe p l x).out = x.out := rfl
@[simp] theorem storeStrobe_reply : (storeStrobe p l x).reply = x.reply := rfl

/-- The end of a strobe pulse: the request, then ready drops, and at last the level 1 is stored. -/
theorem readyLow_stored :
    ((x.trigger p).ready p false).chip.withPort p (fun q => { q with stb := true }) =
      (x.chip.requested p).withPort p fun q => { q with rdy := false, stb := true } := by
  simp

theorem strobeOut_rise (h : (x.chip.port p).stb = false) : strobeOut p true x = (x.trigger p).ready p false := by
  simp [strobeOut, rising, h]
theorem strobeOut_of_noRise (h : ¬ ((x.chip.port p).stb = false ∧ l = true)) : strobeOut p l x = x :=
  if_neg (by simpa [rising] using h)

theorem strobeIn_low : strobeIn p false x = x.onPort p fun q => { q with inLatch := q.pins } := by
  cases p <;> simp [strobeIn, rising] <;> rfl
theorem strobeIn_rise (h : (x.chip.port p).stb = false) : strobeIn p true x = (x.trigger p).ready p false := by
  simp [strobeIn, rising, h]
theorem strobeIn_high (h : ¬ (x.chip.port p).stb = false) : strobeIn p true x = x := by
  simp [strobeIn, rising, h]

theorem strobeBWhileABidir_low :
    strobeBWhileABidir false x = x.onPort .a fun q => { q with inLatch := q.pins } := by
  simp [strobeBWhileABidir, rising]
  rfl
theorem strobeBWhileABidir_rise (h : x.chip.b.stb = false ∧ x.chip.a.stb = true) :
    strobeBWhileABidir true x = (x.trigger .b).ready .b false := by
  simp [strobeBWhileABidir, rising, h]
theorem strobeBWhileABidir_of_noRise (h : ¬ (x.chip.b.stb = false ∧ x.chip.a.stb = true)) :
    strobeBWhileABidir true x = x :=
  if_neg (by simpa [rising] using h)

@[simp] theorem strobeOut_reply : (strobeOut p l x).reply = x.reply := by unfold strobeOut; split <;> rfl
@[simp] theorem strobeIn_reply : (strobeIn p l x).reply = x.reply := by
  unfold strobeIn; dsimp only; split <;> split <;> rfl
@[simp] theorem strobeBidirA_reply : (strobeBidirA l x).reply = x.reply := by unfold strobeBidirA; split <;> rfl
@[simp] theorem strobeBWhileABidir_reply : (strobeBWhileABidir l x).reply = x.reply := by
  unfold strobeBWhileABidir; dsimp only; split <;> split <;> rfl

/-- A level that is stored already. -/
theorem withPort_stb_self {c : PioChip} (h : (c.port p).stb = l) : c.withPort p (fun q => { q with stb := l }) = c := by
  subst h
  exact PioChip.setPort_port c p

end

/-! A strobe served by the port's own mode. -/

theorem ownStrobe_of_notBidir {c : PioChip} {p : Side} (h : p = .b → c.a.mode ≠ .bidir) : c.ownStrobe p = true := by
  cases p with
  | a => rfl
  | b => simpa [PioChip.ownStrobe] using h rfl

/-- Where the port's own mode selects the form, the form's own rule runs and the level is stored (R190). -/
theorem pioStrobeForm_selected {s : State} {k : Nat} {c : PioChip} {p : Side} {m : Mode} (hc : s.hasPio k c)
    (hown : c.ownStrobe p = true) (hm : (c.port p).mode = m) (l : Level) {own : Act PioChip → Act PioChip}
    (hr : (own (Act.begin c)).reply = .none) :
    pioStrobeForm k p m l s own =
      .next (s.afterPio k ((own (Act.begin c)).chip.withPort p fun q => { q with stb := l }) (own (Act.begin c)).out
        .none) := by
  rw [pioStrobeForm, onPio_afterPio hc (if_pos ⟨hown, hm⟩) (by simp [hr]), storeStrobe_reply, hr, Reply.toAnswer_none]
  rfl

/-! The poll. -/

@[simp] theorem pollPort_chip (p : Side) (x : Act PioChip) : (pollPort p x).chip = x.chip.polledPort p := by
  have hpoll : ∀ b m : Bool,
      ((if b then (x.onPort p fun q => { q with inLatch := portRead x p }).trigger p
        else x.onPort p fun q => { q with inLatch := portRead x p }).onPort p fun q => { q with matched := m }).chip =
      if b then (x.chip.withPort p fun q => { q with inLatch := q.pins, matched := m }).requested p
      else x.chip.withPort p fun q => { q with inLatch := q.pins, matched := m } := by
    intro b m
    cases b <;> cases p <;> rfl
  unfold pollPort PioChip.polledPort
  split
  · cases p <;> exact hpoll _ _
  · rfl
@[simp] theorem pollPort_out (p : Side) (x : Act PioChip) : (pollPort p x).out = x.out := by
  unfold pollPort
  split
  · dsimp only
    split <;> rfl
  · rfl
@[simp] theorem pollPort_reply (p : Side) (x : Act PioChip) : (pollPort p x).reply = x.reply := by
  unfold pollPort
  split
  · dsimp only
    split <;> rfl
  · rfl

theorem exec_pioPollTick {s : State} {k : Nat} {c : PioChip} (hc : s.hasPio k c) :
    exec (.pioPollTick k) s = .next (s.afterPio k ((c.polledPort .a).polledPort .b) [] .none) := by
  refine (onPio_afterPio hc (f := fun c => pollPort .b (pollPort .a (Act.begin c))) rfl (by simp)).trans ?_
  simp

/-- A port that a poll has just seen: what a second poll would latch and conclude is there already. -/
def Port.upToDate (q : Port) : Prop :=
  q.mode = .bitctl →
    q.inLatch = q.pins ∧ q.matched = matchCondition q (q.pins ||| (q.outLatch &&& ~~~q.ior))

theorem polledPort_of_upToDate {c : PioChip} {p : Side} (h : (c.port p).upToDate) : c.polledPort p = c := by
  unfold PioChip.polledPort
  split
  · rename_i hm
    obtain ⟨hlatch, hmatched⟩ := h hm
    have hsame : { c.port p with inLatch := (c.port p).pins, matched := (c.port p).matched } = c.port p := by
      rw [← hlatch]
    dsimp only
    rw [← hmatched, Bool.not_and_self, if_neg Bool.false_ne_true, PioChip.withPort_eq, hsame, PioChip.setPort_port]
  · rfl

/-- The arbiter moves no field that a poll looks at. -/
theorem checkInterrupt_upToDate {c : PioChip} {p : Side} :
    (c.checkInterrupt.port p).upToDate ↔ (c.port p).upToDate := by
  cases p <;> exact Iff.rfl

theorem requested_upToDate {c : PioChip} {p p' : Side} :
    ((c.requested p).port p').upToDate ↔ (c.port p').upToDate := by
  rw [PioChip.requested, checkInterrupt_upToDate]
  cases p <;> cases p' <;> exact Iff.rfl

theorem polledPort_upToDate (c : PioChip) (p : Side) : ((c.polledPort p).port p).upToDate := by
  unfold PioChip.polledPort
  split
  · dsimp only
    split
    · rw [requested_upToDate, PioChip.withPort_eq, PioChip.port_setPort]
      exact fun _ => ⟨rfl, rfl⟩
    · rw [PioChip.withPort_eq, PioChip.port_setPort]
      exact fun _ => ⟨rfl, rfl⟩
  · exact fun hm => absurd hm ‹_›

/-- A poll of one port leaves the other up to date. -/
theorem polledPort_keeps_upToDate {c : PioChip} {p p' : Side} (h : (c.port p').upToDate) (hp : p' ≠ p) :
    ((c.polledPort p).port p').upToDate := by
  unfold PioChip.polledPort
  split
  · dsimp only
    split
    · rw [requested_upToDate, PioChip.withPort_eq, PioChip.port_setPort_of_ne _ _ _ _ hp]
      exact h
    · rw [PioChip.withPort_eq, PioChip.port_setPort_of_ne _ _ _ _ hp]
      exact h
  · exact h

/-! The match condition (R201): the bits compared. -/

/-- The lines that count: monitored, and at the level that `icw[5]` selects. -/
theorem matchCondition_bit (q : Port) (d : Byte) (n : Nat) (hn : n < 8) :
    ((if q.icw.getLsbD 5 then d else ~~~d) &&& ~~~q.mask).getLsbD n = true ↔
      q.mask.getLsbD n = false ∧ d.getLsbD n = q.icw.getLsbD 5 := by
  rw [BitVec.getLsbD_and, BitVec.getLsbD_not]
  cases q.icw.getLsbD 5 <;> cases q.mask.getLsbD n <;> simp [hn]

theorem byte_ne_zero_iff (w : Byte) : w ≠ 0#8 ↔ ∃ n < 8, w.getLsbD n = true := by
  constructor
  · intro h
    by_contra hall
    push Not at hall
    exact h (BitVec.eq_of_getLsbD_eq fun n hn => by simpa using hall n hn)
  · rintro ⟨n, -, hn⟩ rfl
    simp at hn

theorem byte_and_eq_right_iff (w m : Byte) : w &&& m = m ↔ ∀ n < 8, m.getLsbD n = true → w.getLsbD n = true := by
  constructor
  · intro h n _ hm
    rw [← h, BitVec.getLsbD_and, Bool.and_eq_true] at hm
    exact hm.1
  · intro h
    refine BitVec.eq_of_getLsbD_eq fun n hn => ?_
    rw [BitVec.getLsbD_and]
    cases hm : m.getLsbD n with
    | false => simp
    | true => simp [h n hn hm]

/-! The obligations. -/

/-- Settles O23: only a rise from the stored level 0 does more than store the level. -/
theorem strobeOutputMode : Obligations.StrobeOutputMode := by
  intro s k c p l hc hm hA
  refine (pioStrobeForm_selected hc (ownStrobe_of_notBidir hA) hm l (own := strobeOut p l)
    (strobeOut_reply ..)).trans ?_
  by_cases h : (c.port p).stb = false ∧ l = true
  · obtain ⟨hs, rfl⟩ := h
    rw [if_pos ⟨hs, rfl⟩, strobeOut_rise (x := Act.begin c) hs, readyLow_stored]
    rfl
  · rw [if_neg h, strobeOut_of_noRise (x := Act.begin c) h]
    rfl

/-- Settles O24: level 0 loads the latch and cannot be a rise; level 1 is a rise exactly from the stored level 0. -/
theorem strobeInputMode : Obligations.StrobeInputMode := by
  intro s k c p hc hm hA
  have hform := fun l => pioStrobeForm_selected hc (ownStrobe_of_notBidir hA) hm l (own := strobeIn p l)
    (strobeIn_reply ..)
  constructor
  · refine (hform false).trans ?_
    rw [strobeIn_low]
    simp
  · refine (hform true).trans ?_
    by_cases hs : (c.port p).stb = false
    · rw [if_pos hs, strobeIn_rise (x := Act.begin c) hs, readyLow_stored]
      rfl
    · rw [if_neg hs, strobeIn_high (x := Act.begin c) hs, Act.begin_chip, withPort_stb_self (by simpa using hs)]
      rfl

/-- Settles O25: what R194 and R195 drive, latch and request; Bit-Control only stores the level. -/
theorem strobeBidirectionalAndBitControl : Obligations.StrobeBidirectionalAndBitControl := by
  refine ⟨fun s k c l hc hm => ⟨?_, ?_⟩, fun s k c p l hc hm hA => ?_⟩
  · refine (pioStrobeForm_selected (p := .a) hc rfl hm l (own := strobeBidirA l) (strobeBidirA_reply ..)).trans ?_
    cases l <;> rfl
  · have hform : exec (.pioStrobeBWhileABidir k l) s =
        .next (s.afterPio k ((strobeBWhileABidir l (Act.begin c)).chip.withPort .b fun q => { q with stb := l })
          (strobeBWhileABidir l (Act.begin c)).out .none) := by
      refine (onPio_afterPio hc (if_pos hm) (by simp)).trans ?_
      rw [storeStrobe_reply, strobeBWhileABidir_reply]
      rfl
    refine hform.trans ?_
    cases l with
    | false =>
      rw [strobeBWhileABidir_low, if_pos rfl]
      rfl
    | true =>
      rw [if_neg (by decide)]
      by_cases hs : c.b.stb = false ∧ c.a.stb = true
      · rw [if_pos hs, strobeBWhileABidir_rise (x := Act.begin c) hs, readyLow_stored]
        rfl
      · rw [if_neg hs, strobeBWhileABidir_of_noRise (x := Act.begin c) hs]
        rfl
  · exact pioStrobeForm_selected hc (ownStrobe_of_notBidir hA) hm l (own := strobeBitctl) rfl

/-- Settles O26: the poll of a port is `PioChip.polledPort`, port A first. -/
theorem pollTickEvaluatesBothPorts : Obligations.PollTickEvaluatesBothPorts := by
  intro s k c hc
  exact exec_pioPollTick hc

/-- Settles O27: the compared bits, line by line. -/
theorem matchConditionByLines : Obligations.MatchConditionByLines := by
  intro q d
  constructor
  · intro hAnd
    simp only [matchCondition, hAnd, if_true, beq_iff_eq, byte_and_eq_right_iff]
    refine forall_congr' fun n => forall_congr' fun hn => ?_
    have hbit := matchCondition_bit q d n hn
    rw [BitVec.getLsbD_and, Bool.and_eq_true] at hbit
    have hmon : (~~~q.mask).getLsbD n = true ↔ q.mask.getLsbD n = false := by simp [hn]
    rw [hmon] at hbit ⊢
    exact forall_congr' fun hmask => by simpa [hmask] using hbit
  · intro hOr
    simp only [matchCondition, hOr, Bool.false_eq_true, if_false, bne_iff_ne, byte_ne_zero_iff]
    exact exists_congr fun n => and_congr_right fun hn => matchCondition_bit q d n hn

/-- Settles O28: after one poll both ports are up to date, so a second poll finds nothing to change. -/
theorem repeatedPollChangesNothing : Obligations.RepeatedPollChangesNothing := by
  intro s t u k ht hu
  obtain ⟨c, hc, -⟩ := onPio_next (f := fun c => pollPort .b (pollPort .a (Act.begin c))) ht
  obtain rfl := Host.Outcome.next.inj ((exec_pioPollTick hc).symm.trans ht)
  have hk : k < s.chips.length := (List.getElem?_eq_some_iff.mp hc).1
  have hc' : (s.afterPio k ((c.polledPort .a).polledPort .b) [] .none).hasPio k ((c.polledPort .a).polledPort .b) := by
    simp [State.hasPio, hk]
  have hB := polledPort_upToDate (c.polledPort .a) .b
  have hA : (((c.polledPort .a).polledPort .b).port .a).upToDate :=
    polledPort_keeps_upToDate (polledPort_upToDate c .a) (by decide)
  rw [exec_pioPollTick hc', polledPort_of_upToDate hA, polledPort_of_upToDate hB, State.afterPio_unchanged hc'] at hu
  exact (Host.Outcome.next.inj hu).symm

end Sys2Proof.Machine
end

section
/-! DART control register: the whole next state of every byte written to it and of every read of it (R211 to R230), the
vector and RR2 (R330, R331). -/

-- One proof at a time: the check then needs fewer threads, each of which takes part of its memory.
set_option Elab.async false

namespace Sys2Proof.Machine

open Sys2Proof

/-! The status bits, one by one (R48, R49). -/

@[simp] theorem hasBits_bit0 (w : Byte) : hasBits w 0x01#8 = w.getLsbD 0 := by revert w; decide
@[simp] theorem hasBits_bit2 (w : Byte) : hasBits w 0x04#8 = w.getLsbD 2 := by revert w; decide
@[simp] theorem hasBits_bit4 (w : Byte) : hasBits w 0x10#8 = w.getLsbD 4 := by revert w; decide
@[simp] theorem hasBits_bit6 (w : Byte) : hasBits w 0x40#8 = w.getLsbD 6 := by revert w; decide

/-- The line bits one by one: 1 where the line is asserted, level 0. -/
theorem lineBits_eq (q : Channel) :
    lineBits q = (if q.dcd then 0x00#8 else 0x08#8) ||| ((if q.ri then 0x00#8 else 0x10#8) |||
      (if q.cts then 0x00#8 else 0x20#8)) := by
  simp only [lineBits]
  generalize q.dcd = dcd, q.ri = ri, q.cts = cts
  revert dcd ri cts
  decide

/-! What each rule does to an operation in progress. -/

section
variable (c : Side) (v : Byte) (l : Level) (x : Act DartChip)

@[simp] theorem Act.driveTxd_chip :
    (x.driveTxd c l).chip = x.chip.setCh c { x.chip.ch c with txd := l } := rfl
@[simp] theorem Act.driveTxd_out : (x.driveTxd c l).out = x.out ++ [.txd c l] := rfl
@[simp] theorem Act.driveTxd_reply : (x.driveTxd c l).reply = x.reply := rfl
@[simp] theorem Act.driveRts_chip :
    (x.driveRts c l).chip = x.chip.setCh c { x.chip.ch c with rts := l } := rfl
@[simp] theorem Act.driveRts_out : (x.driveRts c l).out = x.out ++ [.rts c l] := rfl
@[simp] theorem Act.driveRts_reply : (x.driveRts c l).reply = x.reply := rfl
@[simp] theorem Act.driveDtr_chip :
    (x.driveDtr c l).chip = x.chip.setCh c { x.chip.ch c with dtr := l } := rfl
@[simp] theorem Act.driveDtr_out : (x.driveDtr c l).out = x.out ++ [.dtr c l] := rfl
@[simp] theorem Act.driveDtr_reply : (x.driveDtr c l).reply = x.reply := rfl

@[simp] theorem storeWr0_chip : (storeWr0 c v x).chip = x.chip.withCh c fun q => { q with wr0 := v } := rfl
@[simp] theorem storeWr0_out : (storeWr0 c v x).out = x.out := rfl
@[simp] theorem storeWr0_reply : (storeWr0 c v x).reply = x.reply := rfl

@[simp] theorem pointerHome_chip : (pointerHome c x).chip = x.chip.withCh c fun q => { q with wr0 := 0x00#8 } := rfl
@[simp] theorem pointerHome_out : (pointerHome c x).out = x.out := rfl
@[simp] theorem pointerHome_reply : (pointerHome c x).reply = x.reply := rfl

@[simp] theorem resetExtStatus_chip :
    (resetExtStatus c x).chip =
      x.chip.withCh c fun q =>
        { q with
          rr0Latch := false,
          rr0 := (q.rr0 &&& 0x47#8) ||| (if q.dcd then 0x00#8 else 0x08#8) ||| (if q.ri then 0x00#8 else 0x10#8)
            ||| (if q.cts then 0x00#8 else 0x20#8) } := by
  simp only [resetExtStatus, Act.onCh_chip, lineBits_eq, DartChip.withCh_eq, BitVec.or_assoc]
  rfl
@[simp] theorem resetExtStatus_out : (resetExtStatus c x).out = x.out := rfl
@[simp] theorem resetExtStatus_reply : (resetExtStatus c x).reply = x.reply := rfl

/-- A channel after the Channel-reset command (R215). -/
def Channel.reset (q : Channel) : Channel :=
  { q with
    wr3 := q.wr3 &&& 0xFE#8, wr5 := q.wr5 &&& 0xF7#8, rxState := .start, txState := .start, rts := true, dtr := true }

/-- No interrupt state is left on either channel (R215). -/
def DartChip.silenced (d : DartChip) : DartChip :=
  (d.withCh .a fun q => { q with src := Source.idle }).withCh .b fun q => { q with src := Source.idle }

@[simp] theorem channelReset_chip :
    (channelReset c x).chip =
      if c = .a then (x.chip.withCh .a Channel.reset).silenced else x.chip.withCh c Channel.reset := by
  cases c <;> rfl
@[simp] theorem channelReset_out : (channelReset c x).out = x.out ++ [.rts c true, .dtr c true] := by
  cases c <;> simp [channelReset]
@[simp] theorem channelReset_reply : (channelReset c x).reply = x.reply := by cases c <;> rfl

@[simp] theorem enableNextRx_chip :
    (enableNextRx c x).chip = x.chip.withCh c fun q => { q with rxFirst := true } := rfl
@[simp] theorem enableNextRx_out : (enableNextRx c x).out = x.out := rfl
@[simp] theorem enableNextRx_reply : (enableNextRx c x).reply = x.reply := rfl

@[simp] theorem errorReset_chip :
    (errorReset c x).chip = x.chip.withCh c fun q => { q with rr1 := q.rr1 &&& 0x8F#8 } := rfl
@[simp] theorem errorReset_out : (errorReset c x).out = x.out := rfl
@[simp] theorem errorReset_reply : (errorReset c x).reply = x.reply := rfl

/-- The return from interrupt, by the source it finds under service (R219, R327). -/
theorem DartChip.irqReti_eq :
    DartChip.irqReti x =
      if x.chip.a.src.ieo then
        { x with chip := (x.chip.withCh .a fun q => { q with src := q.src.released }).checkInterrupt }
      else if x.chip.b.src.ieo then
        { x with chip := (x.chip.withCh .b fun q => { q with src := q.src.released }).checkInterrupt }
      else x.emit (.diagnostic .retiWithoutService) := by
  unfold DartChip.irqReti firstIeo
  cases x.chip.a.src.ieo <;> cases x.chip.b.src.ieo <;> rfl

@[simp] theorem DartChip.irqReti_reply : (DartChip.irqReti x).reply = x.reply := by
  rw [DartChip.irqReti_eq]
  split
  · rfl
  · split <;> rfl

@[simp] theorem writeWr1_chip :
    (writeWr1 c v x).chip = (x.chip.withCh c fun q => { q with wr1 := v }).checkInterrupt := rfl
@[simp] theorem writeWr1_out : (writeWr1 c v x).out = x.out := rfl
@[simp] theorem writeWr1_reply : (writeWr1 c v x).reply = x.reply := rfl
@[simp] theorem writeWr2_chip : (writeWr2 c v x).chip = x.chip.withCh c fun q => { q with wr2 := v } := rfl
@[simp] theorem writeWr2_out : (writeWr2 c v x).out = x.out := rfl
@[simp] theorem writeWr2_reply : (writeWr2 c v x).reply = x.reply := rfl
@[simp] theorem writeWr3_chip : (writeWr3 c v x).chip = x.chip.withCh c fun q => { q with wr3 := v } := rfl
@[simp] theorem writeWr3_out : (writeWr3 c v x).out = x.out := rfl
@[simp] theorem writeWr3_reply : (writeWr3 c v x).reply = x.reply := rfl
@[simp] theorem writeWr4_chip : (writeWr4 c v x).chip = x.chip.withCh c fun q => { q with wr4 := v } := rfl
@[simp] theorem writeWr4_out : (writeWr4 c v x).out = x.out := rfl
@[simp] theorem writeWr4_reply : (writeWr4 c v x).reply = x.reply := rfl

/-- RTS follows its bit at once to asserted, and to released once all is sent; DTR follows both ways (R224). -/
@[simp] theorem writeWr5_chip :
    (writeWr5 c v x).chip =
      x.chip.withCh c fun q =>
        { q with
          wr5 := v, dtr := !v.getLsbD 7,
          rts := if v.getLsbD 1 then false else if q.rr1.getLsbD 0 then true else q.rts } := by
  simp only [writeWr5, Act.onCh_chip, DartChip.ch_setCh, allSent, hasBits_bit0]
  cases v.getLsbD 1 <;> cases h : (x.chip.ch c).rr1.getLsbD 0 <;> simp [h, -BitVec.getLsbD_eq_getElem]
@[simp] theorem writeWr5_out :
    (writeWr5 c v x).out =
      x.out ++ ((if v.getLsbD 1 then [.rts c false] else if (x.chip.ch c).rr1.getLsbD 0 then [.rts c true] else []) ++
        [.dtr c (!v.getLsbD 7)]) := by
  simp only [writeWr5, Act.onCh_chip, DartChip.ch_setCh, allSent, hasBits_bit0]
  cases v.getLsbD 1 <;> cases (x.chip.ch c).rr1.getLsbD 0 <;> simp
@[simp] theorem writeWr5_reply : (writeWr5 c v x).reply = x.reply := by
  simp only [writeWr5]
  split
  · rfl
  · split <;> rfl

@[simp] theorem readPointer_chip (resets : Bool) :
    (readPointer resets c x).chip = x.chip.afterControlRead c resets := by
  unfold readPointer DartChip.afterControlRead
  split
  · rename_i h
    rw [pointerHome_chip, DartChip.withCh_eq, DartChip.withCh_eq, if_pos h]
  · rename_i h
    rw [DartChip.withCh_eq, if_neg h, DartChip.setCh_ch]
@[simp] theorem readPointer_out (resets : Bool) : (readPointer resets c x).out = x.out := by
  unfold readPointer; split <;> rfl
@[simp] theorem readPointer_reply (resets : Bool) : (readPointer resets c x).reply = x.reply := by
  unfold readPointer; split <;> rfl

end

/-! A read of a control register moves its pointer only, which no answer depends on. -/

section
variable (d : DartChip) (c : Side) (resets : Bool)

theorem afterControlRead_of_ptr_zero {d : DartChip} {c : Side} (h : (d.ch c).ptr = 0#3) :
    d.afterControlRead c resets = d := by
  simp [DartChip.afterControlRead, h]

theorem ch_afterControlRead :
    (d.afterControlRead c resets).ch c =
      if resets && (d.ch c).ptr != 0#3 then { d.ch c with wr0 := 0x00#8 } else d.ch c := by
  simp [DartChip.afterControlRead]

@[simp] theorem rr1_afterControlRead : ((d.afterControlRead c resets).ch c).rr1 = (d.ch c).rr1 := by
  rw [ch_afterControlRead]; split <;> rfl

@[simp] theorem rr2Value_afterControlRead : (d.afterControlRead c resets).rr2Value = d.rr2Value := by
  unfold DartChip.afterControlRead
  cases c <;> dsimp only [DartChip.withCh_eq] <;> split <;> rfl

end

/-! An operation on a DART that returns no free byte: the next state written out. -/

theorem onDart_afterDart {s : State} {k : Nat} {d : DartChip} (hd : s.hasDart k d) {f : DartChip → Act DartChip}
    {y : Act DartChip} (hf : f d = y) (hr : y.reply ≠ .anyByte) :
    onDart k s f = .next (s.afterDart k y.chip y.out (y.reply.toAnswer 0)) := by
  rw [onDart_of_hasDart hd, hf, commit_dart s k y hr]

/-- The same for an operation without a result. -/
theorem onDart_afterDart_none {s : State} {k : Nat} {d : DartChip} (hd : s.hasDart k d)
    {f : DartChip → Act DartChip} {y : Act DartChip} (hf : f d = y) (hr : y.reply = .none) :
    onDart k s f = .next (s.afterDart k y.chip y.out .none) := by
  rw [onDart_afterDart hd hf (by simp [hr]), hr, Reply.toAnswer_none]

/-- At the pointer that selects the row, a write is the row's own rule (R211). -/
theorem dartControlForm_selected {s : State} {k : Nat} {d : DartChip} {c : Side} {n : BitVec 3} (hd : s.hasDart k d)
    (hn : (d.ch c).ptr = n) (v : Byte) {own : Act DartChip → Act DartChip}
    (hr : (own (Act.begin d)).reply = .none) :
    dartControlForm k c n v s own = .next (s.afterDart k (own (Act.begin d)).chip (own (Act.begin d)).out .none) := by
  rw [dartControlForm, onDart_afterDart_none hd (if_pos hn) hr]

/-- At the pointer that selects the row, a read is the row's own rule, and its byte is the result (R226). -/
theorem dartReadForm_selected {s : State} {k : Nat} {d : DartChip} {c : Side} {n : BitVec 3} (hd : s.hasDart k d)
    (hn : (d.ch c).ptr = n) {own : Act DartChip → Act DartChip} {f : DartChip → Byte}
    (hown : ∀ x, own x = x.replyWith (.byte (f x.chip))) :
    dartReadForm k c n s own =
      .next (s.afterDart k (d.afterControlRead c s.readResetsPtr) []
        (.byte (f (d.afterControlRead c s.readResetsPtr)))) := by
  rw [dartReadForm, onDart_afterDart hd (if_pos hn) (by simp [hown]), hown]
  simp

/-- A WR0 command at pointer 0: the byte is stored, then the command runs (R212). -/
theorem exec_wr0Row_selected {s : State} {k : Nat} {d : DartChip} {c : Side} (hd : s.hasDart k d)
    (hn : (d.ch c).ptr = 0#3) (m : BitVec 3) (f : BitVec 2) (n : BitVec 3)
    (hr : ∀ x, (wr0Command m c x).reply = x.reply) :
    exec (wr0Row k c m f n) s =
      .next (s.afterDart k (wr0Command m c (storeWr0 c (wr0Byte f m n) (Act.begin d))).chip
        (wr0Command m c (storeWr0 c (wr0Byte f m n) (Act.begin d))).out .none) := by
  rw [exec_wr0Row]
  exact dartControlForm_selected hd hn _ (hr _)

/-! Vectors (R330, R331). -/

theorem statusVector_eq (v : Byte) (s : Side) (cause : BitVec 2) :
    statusVector v s cause = v.extractLsb' 4 4 ++ BitVec.ofBool (s == .a) ++ cause ++ v.extractLsb' 0 1 := by
  cases s <;> rcases modeField_cases cause with rfl | rfl | rfl | rfl <;> revert v <;> decide

/-- What RR2 shows in bits 3 to 1 with nothing going on. -/
theorem idleVector_eq (v : Byte) : (v &&& 0xF1#8) ||| 0x06#8 = v.extractLsb' 4 4 ++ 0b011#3 ++ v.extractLsb' 0 1 := by
  revert v; decide

theorem source_active_iff (r : Source) : r.active = true ↔ r ≠ Source.idle := by
  obtain ⟨ip, int, ieo⟩ := r
  revert ip int ieo
  decide

theorem vectorOf_of_sav {d : DartChip} (h : d.sav = true) (x : Side) :
    d.vectorOf x = statusVector d.b.wr2 x (d.ch x).cause := if_pos h

theorem rr2Value_eq (d : DartChip) :
    d.rr2Value =
      if d.sav = false then d.b.wr2
      else if d.a.src ≠ Source.idle then d.vectorOf .a
      else if d.b.src ≠ Source.idle then d.vectorOf .b
      else d.b.wr2.extractLsb' 4 4 ++ 0b011#3 ++ d.b.wr2.extractLsb' 0 1 := by
  cases h : d.sav with
  | false => simp [DartChip.rr2Value, h]
  | true =>
    simp only [DartChip.rr2Value, h, Bool.not_true, Bool.false_eq_true, if_false, source_active_iff, vectorOf_of_sav h,
      idleVector_eq, Bool.true_eq_false]
    rfl

/-! RR0 (R227). -/

theorem rr0Value_eq (d : DartChip) (c : Side) :
    d.rr0Value c =
      ((d.ch c).rr0 &&& 0xBD#8) |||
        (if c = .a ∧ (d.a.src.int = true ∨ d.b.src.int = true) then 0x02#8 else 0x00#8) := by
  have hclear : clearBits (d.ch c).rr0 0x42#8 = (d.ch c).rr0 &&& 0xBD#8 := rfl
  by_cases h : c = .a ∧ (d.a.src.int = true ∨ d.b.src.int = true)
  · rw [if_pos h, DartChip.rr0Value, if_pos (by simpa using h), hclear]
    rfl
  · rw [if_neg h, DartChip.rr0Value, if_neg (by simpa using h), hclear, BitVec.or_zero]

/-! The pointer (R211). -/

/-- The byte last stored in WR0, whose low bits are the pointer, is moved by no command. -/
theorem wr0_wr0Command (m : BitVec 3) (c c' : Side) (x : Act DartChip) :
    ((wr0Command m c x).chip.ch c').wr0 = (x.chip.ch c').wr0 := by
  rcases pointer_cases m with rfl | rfl | rfl | rfl | rfl | rfl | rfl | rfl
  case inr.inr.inr.inr.inr.inr.inr =>
    rw [wr0Command, DartChip.irqReti_eq]
    split
    · cases c' <;> rfl
    · split <;> cases c' <;> rfl
  all_goals cases c <;> cases c' <;> rfl

theorem wr0_writeRegister (n : BitVec 3) (c c' : Side) (v : Byte) (x : Act DartChip) :
    ((writeRegister n c v x).chip.ch c').wr0 = (x.chip.ch c').wr0 := by
  rcases pointer_cases n with rfl | rfl | rfl | rfl | rfl | rfl | rfl | rfl
  case inr.inr.inr.inr.inr.inl =>
    rw [writeRegister, writeWr5_chip]
    cases c <;> cases c' <;> rfl
  all_goals cases c <;> cases c' <;> rfl

/-- The pointers after a byte at a control register (R211). -/
theorem ptr_dartControlWrite (c : Side) (v : Byte) (x : Act DartChip) :
    ((dartControlWrite c v x).chip.ch c).ptr = (if (x.chip.ch c).ptr = 0#3 then v.extractLsb' 0 3 else 0#3) ∧
      ∀ c', c' ≠ c → ((dartControlWrite c v x).chip.ch c').ptr = (x.chip.ch c').ptr := by
  by_cases h : (x.chip.ch c).ptr = 0#3
  · rw [dartControlWrite_wr0 h, writeWr0_eq, if_pos h]
    refine ⟨?_, fun c' hc' => ?_⟩
    · simp [Channel.ptr, wr0_wr0Command]
    · simp [Channel.ptr, wr0_wr0Command, DartChip.ch_setCh_of_ne _ _ _ _ hc']
  · rw [dartControlWrite_register rfl h, if_neg h]
    refine ⟨?_, fun c' hc' => ?_⟩
    · simp [Channel.ptr]
    · simp [Channel.ptr, wr0_writeRegister, DartChip.ch_setCh_of_ne _ _ _ _ hc']

/-- The DART at `k` after a bus write there. -/
theorem busWrite_hasDart {s t : State} {k : Nat} {d d' : DartChip} {c : Side} {v : Byte} (hd : s.hasDart k d)
    (ht : exec (.busWrite k true c.toBit v) s = .next t) (hd' : t.hasDart k d') :
    d' = (dartControlWrite c v (Act.begin d)).chip := by
  have hk : k < s.chips.length := (List.getElem?_eq_some_iff.mp hd).1
  obtain rfl := Host.Outcome.next.inj ((onChip_of_get hd (busWriteOn true c.toBit v)).symm.trans ht)
  rw [State.hasDart, State.commit_chips, List.getElem?_set_self hk, busWriteOn_control_dart] at hd'
  exact (Chip.dart.inj (Option.some.inj hd')).symm

/-! The obligations. -/

/-- Settles O29: the three commands without a rule of their own, and the discarded byte. -/
theorem plainPointerBytes : Obligations.PlainPointerBytes := by
  intro s k d c f n v hd
  refine ⟨fun hp => ⟨?_, ?_, ?_⟩, fun hp => ?_⟩
  · exact exec_wr0Row_selected hd hp 0#3 f n fun _ => rfl
  · exact exec_wr0Row_selected hd hp 1#3 f n fun _ => rfl
  · exact exec_wr0Row_selected hd hp 5#3 f n fun _ => rfl
  · exact onDart_afterDart_none hd (y := pointerHome c (Act.begin d)) (if_pos hp) rfl

/-- Settles O30: the line bits are re-derived from the latches, which storing WR0 does not move. -/
theorem resetExternalStatus : Obligations.ResetExternalStatus := by
  intro s k d c f n hd hp
  refine (exec_wr0Row_selected hd hp 2#3 f n fun x => resetExtStatus_reply c x).trans ?_
  rw [wr0Command, resetExtStatus_chip, resetExtStatus_out]
  simp only [storeWr0_chip, storeWr0_out, Act.begin_chip, Act.begin_out, DartChip.withCh_eq, DartChip.ch_setCh,
    DartChip.setCh_setCh]
  rfl

/-- Settles O31: on channel A the sources of both channels become idle besides. -/
theorem channelResetCommand : Obligations.ChannelResetCommand := by
  intro s k d c f n hd hp
  refine (exec_wr0Row_selected hd hp 3#3 f n fun x => channelReset_reply c x).trans ?_
  rw [wr0Command, channelReset_chip, channelReset_out, storeWr0_chip, storeWr0_out, Act.begin_chip, Act.begin_out]
  cases c <;> rfl

/-- Settles O32: each command changes its own register. -/
theorem firstCharacterAndErrorReset : Obligations.FirstCharacterAndErrorReset := by
  intro s k d c f n hd hp
  constructor
  · refine (exec_wr0Row_selected hd hp 4#3 f n fun x => enableNextRx_reply c x).trans ?_
    cases c <;> rfl
  · refine (exec_wr0Row_selected hd hp 6#3 f n fun x => errorReset_reply c x).trans ?_
    cases c <;> rfl

/-- Settles O33: storing WR0 moves no service flag, so the return finds the channel that was under service. -/
theorem returnFromInterruptCommand : Obligations.ReturnFromInterruptCommand := by
  intro s k d c f n hd hp
  refine (exec_wr0Row_selected hd hp 7#3 f n fun x => DartChip.irqReti_reply x).trans ?_
  have ha : (storeWr0 c (wr0Byte f 7#3 n) (Act.begin d)).chip.a.src = d.a.src := by cases c <;> rfl
  have hb : (storeWr0 c (wr0Byte f 7#3 n) (Act.begin d)).chip.b.src = d.b.src := by cases c <;> rfl
  rw [wr0Command, DartChip.irqReti_eq, ha, hb]
  cases d.a.src.ieo <;> cases d.b.src.ieo <;> rfl

/-- Settles O34: each pointer selects its register, and the pointer returns. -/
theorem writeRegisters1To4 : Obligations.WriteRegisters1To4 := by
  intro s k d c v hd
  refine ⟨fun hp => ?_, fun hp => ?_, fun hp => ?_, fun hp => ?_⟩
  · refine (dartControlForm_selected hd hp v (own := fun y => pointerHome c (writeWr1 c v y)) rfl).trans ?_
    cases c <;> rfl
  · refine (dartControlForm_selected hd hp v (own := fun y => pointerHome c (writeWr2 c v y)) rfl).trans ?_
    cases c <;> rfl
  · refine (dartControlForm_selected hd hp v (own := fun y => pointerHome c (writeWr3 c v y)) rfl).trans ?_
    cases c <;> rfl
  · refine (dartControlForm_selected hd hp v (own := fun y => pointerHome c (writeWr4 c v y)) rfl).trans ?_
    cases c <;> rfl

/-- Settles O35: RTS and DTR as `writeWr5` drives them. -/
theorem writeRegister5DrivesLines : Obligations.WriteRegister5DrivesLines := by
  intro s k d c v hd hp
  refine (dartControlForm_selected hd hp v (own := fun y => pointerHome c (writeWr5 c v y)) (by simp)).trans ?_
  rw [pointerHome_chip, pointerHome_out, writeWr5_chip, writeWr5_out, Act.begin_out, List.nil_append]
  cases c <;> rfl

/-- Settles O36: only the byte stored in WR0 at pointer 0 moves the pointer away from 0. -/
theorem pointerAfterControlWrite : Obligations.PointerAfterControlWrite := by
  intro s t k d d' c v hd hd' ht
  rw [busWrite_hasDart hd ht hd']
  exact ptr_dartControlWrite c v (Act.begin d)

/-- Settles O37: the answer by the pointer; the pointer itself by the parameter. -/
theorem statusRegisterReads : Obligations.StatusRegisterReads := by
  intro s k d c hd
  refine ⟨fun hp => ?_, fun hp => ?_, fun hp => ?_⟩
  · refine (dartReadForm_selected hd hp (own := readRr0 c) (f := fun e => e.rr0Value c) fun _ => rfl).trans ?_
    rw [afterControlRead_of_ptr_zero _ hp, rr0Value_eq]
  · refine (dartReadForm_selected hd hp (own := readRr1 c) (f := fun e => (e.ch c).rr1) fun _ => rfl).trans ?_
    rw [rr1_afterControlRead]
  · have hn : 3 ≤ (d.ch c).ptr.toNat ∨ ((d.ch c).ptr.toNat = 2 ∧ c = .a) :=
      hp.imp_right fun ⟨h2, hc⟩ => ⟨by rw [h2]; rfl, hc⟩
    have hexec : exec (.dartReadReserved k c) s =
        .next (s.commit k ((readReserved (readPointer s.readResetsPtr c (Act.begin d))).lift .dart)) := by
      refine (onDart_of_hasDart hd _).trans ?_
      dsimp only
      rw [if_pos hn]
    rw [hexec, commit_dart_any _ _ _ rfl (by simp [readReserved])]
    simp [readReserved]

/-- Settles O38: the vector's bits, and the source that RR2 shows. -/
theorem vectorAndRegister2 : Obligations.VectorAndRegister2 := by
  refine ⟨fun d x => ⟨fun h => if_neg (by simpa [DartChip.sav] using h), fun h => ?_⟩, fun s k d hd hp => ?_⟩
  · rw [vectorOf_of_sav h, statusVector_eq]
  · refine (dartReadForm_selected (c := .b) hd hp (own := readRr2) (f := DartChip.rr2Value) fun _ => rfl).trans ?_
    rw [rr2Value_afterControlRead, rr2Value_eq]
    rfl

end Sys2Proof.Machine
end

section
/-! DART data register, receive FIFO and modem lines (R240 to R251, R260 to R263). -/

-- One proof at a time: the check then needs fewer threads, each of which takes part of its memory.
set_option Elab.async false

namespace Sys2Proof.Machine

open Sys2Proof

/-! Changes of one channel compose. -/

theorem Act.onCh_onCh (x : Act DartChip) (c : Side) (f g : Channel → Channel) :
    (x.onCh c f).onCh c g = x.onCh c fun q => g (f q) := by
  cases c <;> rfl

theorem Act.onCh_self {x : Act DartChip} {c : Side} {f : Channel → Channel} (h : f (x.chip.ch c) = x.chip.ch c) :
    x.onCh c f = x := by
  refine Act.ext_of ?_ rfl rfl
  rw [Act.onCh_chip, h, DartChip.setCh_ch]

/-- Changes that agree on the channel as it stands. -/
theorem Act.onCh_congr {x : Act DartChip} {c : Side} {f g : Channel → Channel}
    (h : f (x.chip.ch c) = g (x.chip.ch c)) : x.onCh c f = x.onCh c g := by
  refine Act.ext_of ?_ rfl rfl
  rw [Act.onCh_chip, Act.onCh_chip, h]

/-! The FIFO (R245, R247, R248). -/

/-- A channel that has stored a character (R248). -/
def Channel.stored (v err : Byte) (q : Channel) : Channel :=
  { q with
    rr0 := q.rr0 ||| 0x01#8,
    fifo :=
      { n := q.fifo.n + 1,
        data :=
          { x0 := if q.fifo.n = 0 then v else q.fifo.data.x0, x1 := if q.fifo.n = 1 then v else q.fifo.data.x1,
            x2 := if q.fifo.n = 2 then v else q.fifo.data.x2 },
        err :=
          { x0 := if q.fifo.n = 0 then err else q.fifo.err.x0, x1 := if q.fifo.n = 1 then err else q.fifo.err.x1,
            x2 := if q.fifo.n = 2 then err else q.fifo.err.x2 } } }

/-- A channel that has lost a character to a full FIFO (R248). -/
def Channel.lost (q : Channel) : Channel :=
  { q with
    rr0 := q.rr0 ||| 0x01#8, rr1 := q.rr1 ||| 0x20#8,
    fifo := { q.fifo with err := { q.fifo.err with x2 := q.fifo.err.x2 ||| 0x20#8 } } }

theorem Three.put_eq (t : Three) (n : Nat) (v : Byte) :
    t.put n v =
      { x0 := if n = 0 then v else t.x0, x1 := if n = 1 then v else t.x1, x2 := if n = 2 then v else t.x2 } := by
  match n with
  | 0 | 1 | 2 => rfl
  | n + 3 => simp [Three.put]

/-- A push, RX_AVAIL included; past index 2 nothing is stored but the count (log entry 16). -/
theorem Channel.push_avail (q : Channel) (v err : Byte) :
    { q.push v err with rr0 := setBits (q.push v err).rr0 rxAvail } = q.stored v err := by
  simp only [Channel.push, Three.put_eq]
  rfl

/-- The DART after a character arrived, by whether there was room (R248). -/
def DartChip.received (d : DartChip) (c : Side) (v err : Byte) : DartChip :=
  if (d.ch c).fifo.n = 3 then (d.withCh c Channel.lost).arrival c 3#2
  else (d.withCh c (Channel.stored v err)).arrival c (if (d.ch c).special err then 3#2 else 2#2)

/-- An arriving character changes the chip only. -/
theorem rxPush_eq (c : Side) (v err : Byte) (x : Act DartChip) :
    rxPush c v err x = { x with chip := x.chip.received c v err } := by
  have hdepth : Config.fifoDepth = 3 := rfl
  unfold rxPush DartChip.received
  rw [hdepth]
  dsimp only
  split
  · rw [rxInterrupt_eq, Act.onCh_onCh]
    rfl
  · rw [rxInterrupt_eq, Act.onCh_onCh]
    simp only [Channel.push_avail]
    rfl

theorem special_iff (q : Channel) (err : Byte) :
    q.special err = true ↔
      err.getLsbD 6 = true ∨ (err.getLsbD 4 = true ∧ q.wr1.extractLsb' 3 2 = 0b10#2) := by
  simp only [Channel.special, framing, parityErr, hasBits_bit4, hasBits_bit6, Channel.rxIm, Bool.or_eq_true,
    Bool.and_eq_true, beq_iff_eq]

/-- A character without error flags is never special. -/
theorem special_noFlags (q : Channel) : q.special 0x00#8 = false := by
  rw [Bool.eq_false_iff, ne_eq, special_iff]
  simp

/-! The report of an arrival (R249). -/

/-- The receive interrupt mode asks for a report of the next character. -/
def Channel.reports (q : Channel) : Bool :=
  q.wr1.extractLsb' 3 2 != 0b00#2 && (q.wr1.extractLsb' 3 2 != 0b01#2 || q.rxFirst)

/-- In mode 0b01 a report uses up the first-character flag. -/
def Channel.reported (q : Channel) : Channel :=
  { q with rxFirst := q.rxFirst && q.wr1.extractLsb' 3 2 != 0b01#2 }

theorem arrival_eq (d : DartChip) (c : Side) (k : BitVec 2) :
    d.arrival c k = if (d.ch c).reports then (d.withCh c Channel.reported).requested c k else d := by
  unfold DartChip.arrival Channel.reports
  by_cases h0 : (d.ch c).wr1.extractLsb' 3 2 = 0b00#2
  · simp [h0]
  · by_cases h1 : (d.ch c).wr1.extractLsb' 3 2 = 0b01#2
    · simp [h1, Channel.reported]
    · have hkeep : (d.ch c).reported = d.ch c := by rw [Channel.reported, bne_iff_ne.mpr h1, Bool.and_true]
      simp [h0, h1, hkeep]

/-! What a request and an arrival leave alone. -/

/-- The fields of a channel that the reporting of an event does not touch: all but `cause`, `src` and `rxFirst`. -/
def Channel.sameButRequest (q q' : Channel) : Prop :=
  q' = { q with cause := q'.cause, src := q'.src, rxFirst := q'.rxFirst }

theorem Channel.sameButRequest.refl (q : Channel) : q.sameButRequest q := rfl

theorem requested_sameButRequest (d : DartChip) (c c' : Side) (k : BitVec 2) :
    (d.ch c').sameButRequest ((d.requested c k).ch c') := by
  cases c <;> cases c' <;> rfl

theorem arrival_sameButRequest (d : DartChip) (c c' : Side) (k : BitVec 2) :
    (d.ch c').sameButRequest ((d.arrival c k).ch c') := by
  rw [arrival_eq]
  split
  · cases c <;> cases c' <;> rfl
  · rfl

theorem fifo_arrival (d : DartChip) (c c' : Side) (k : BitVec 2) : ((d.arrival c k).ch c').fifo = (d.ch c').fifo := by
  rw [arrival_sameButRequest d c c' k]
theorem rr1_arrival (d : DartChip) (c c' : Side) (k : BitVec 2) : ((d.arrival c k).ch c').rr1 = (d.ch c').rr1 := by
  rw [arrival_sameButRequest d c c' k]

/-! The data register. -/

/-- A channel that has handed over its oldest character (R245). -/
def Channel.popped (q : Channel) : Channel :=
  { q with
    rr1 := (q.rr1 &&& 0xBF#8) ||| (q.fifo.err.x0 &&& 0x70#8),
    rr0 := if q.fifo.n = 1 then q.rr0 &&& 0xFE#8 else q.rr0,
    fifo :=
      { n := q.fifo.n - 1, data := ⟨q.fifo.data.x1, q.fifo.data.x2, q.fifo.data.x2⟩,
        err := ⟨q.fifo.err.x1, q.fifo.err.x2, q.fifo.err.x2⟩ } }

theorem Channel.pop_eq {q : Channel} (h : q.fifo.n ≠ 0) : q.pop = q.popped := by
  have hn : q.fifo.n - 1 = 0 ↔ q.fifo.n = 1 := by omega
  simp only [Channel.pop, Channel.popped, hn]
  rfl

theorem dartDataRead_empty {c : Side} {x : Act DartChip} (h : (x.chip.ch c).fifo.n = 0) :
    dartDataRead c x = x.replyWith .anyByte := if_pos h

theorem dartDataRead_pops {c : Side} {x : Act DartChip} (h : (x.chip.ch c).fifo.n ≠ 0) :
    dartDataRead c x = (x.onCh c Channel.popped).replyWith (.byte (x.chip.ch c).fifo.data.x0) := by
  rw [dartDataRead, if_neg h, Act.onCh_congr (Channel.pop_eq h)]

theorem exec_dartDataRead_pops {s : State} {k : Nat} {d : DartChip} {c : Side} (hd : s.hasDart k d)
    (h : (d.ch c).fifo.n ≠ 0) :
    exec (.dartDataRead k c) s =
      .next (s.afterDart k (d.withCh c Channel.popped) [] (.byte (d.ch c).fifo.data.x0)) :=
  onDart_afterDart hd (f := fun d => dartDataRead c (Act.begin d)) (dartDataRead_pops (x := Act.begin d) h) (by simp)

theorem exec_dartReceiveData {s : State} {k : Nat} {d : DartChip} (c : Side) (v : Byte) (hd : s.hasDart k d) :
    exec (.dartReceiveData k c v) s = .next (s.afterDart k (d.received c v 0x00#8) [] .none) :=
  onDart_afterDart_none hd (f := fun d => receiveData c v (Act.begin d)) (rxPush_eq c v 0x00#8 (Act.begin d)) rfl

theorem received_full {d : DartChip} {c : Side} (h : (d.ch c).fifo.n = 3) (v err : Byte) :
    d.received c v err = (d.withCh c Channel.lost).arrival c 3#2 := if_pos h

theorem received_room {d : DartChip} {c : Side} (h : (d.ch c).fifo.n < 3) (v err : Byte) :
    d.received c v err =
      (d.withCh c (Channel.stored v err)).arrival c (if (d.ch c).special err then 3#2 else 2#2) :=
  if_neg (Nat.ne_of_lt h)

/-- The FIFO after an arrival into a FIFO with room. -/
theorem fifo_received_room {d : DartChip} {c : Side} (h : (d.ch c).fifo.n < 3) (v err : Byte) :
    ((d.received c v err).ch c).fifo = (Channel.stored v err (d.ch c)).fifo := by
  rw [received_room h, fifo_arrival, DartChip.withCh_eq, DartChip.ch_setCh]

/-- The FIFO after an arrival into a full FIFO: the characters stand. -/
theorem fifo_received_full {d : DartChip} {c : Side} (h : (d.ch c).fifo.n = 3) (v err : Byte) :
    ((d.received c v err).ch c).fifo = (Channel.lost (d.ch c)).fifo := by
  rw [received_full h, fifo_arrival, DartChip.withCh_eq, DartChip.ch_setCh]

/-- An arrival into a full FIFO sets OVERRUN in RR1. -/
theorem overrun_received_full {d : DartChip} {c : Side} (h : (d.ch c).fifo.n = 3) (v err : Byte) :
    ((d.received c v err).ch c).rr1.getLsbD 5 = true := by
  rw [received_full h, rr1_arrival, DartChip.withCh_eq, DartChip.ch_setCh, Channel.lost]
  simp

/-- A read accumulates OVERRUN (R245). -/
theorem overrun_popped {q : Channel} (h : q.rr1.getLsbD 5 = true) : q.popped.rr1.getLsbD 5 = true := by
  simp only [Channel.popped, BitVec.getLsbD_or, BitVec.getLsbD_and, h]
  rfl

/-- With the last character RX_AVAIL goes (R245). -/
theorem rxAvail_popped {q : Channel} (h : q.fifo.n = 1) : q.popped.rr0.getLsbD 0 = false := by
  simp [Channel.popped, h]

/-- The DART at `k` in the state written out by `afterDart`. -/
theorem hasDart_afterDart {s : State} {k : Nat} {d e : DartChip} {es : List Signal} {ans : Answer}
    (hd : s.hasDart k d) : (s.afterDart k e es ans).hasDart k e := by
  rw [State.hasDart, State.afterDart_chips, List.getElem?_set_self (List.getElem?_eq_some_iff.mp hd).1]

/-- An arrival into a FIFO with room, as far as the FIFO. -/
theorem receive_room {s : State} {k : Nat} {d : DartChip} {c : Side} (v : Byte) (hd : s.hasDart k d)
    (h : (d.ch c).fifo.n < 3) :
    ∃ t e, exec (.dartReceiveData k c v) s = .next t ∧ t.hasDart k e ∧
      (e.ch c).fifo = (Channel.stored v 0x00#8 (d.ch c)).fifo :=
  ⟨_, _, exec_dartReceiveData c v hd, hasDart_afterDart hd, fifo_received_room h ..⟩

/-- An arrival into a full FIFO, as far as the FIFO and OVERRUN. -/
theorem receive_full {s : State} {k : Nat} {d : DartChip} {c : Side} (v : Byte) (hd : s.hasDart k d)
    (h : (d.ch c).fifo.n = 3) :
    ∃ t e, exec (.dartReceiveData k c v) s = .next t ∧ t.hasDart k e ∧
      (e.ch c).fifo = (Channel.lost (d.ch c)).fifo ∧ (e.ch c).rr1.getLsbD 5 = true :=
  ⟨_, _, exec_dartReceiveData c v hd, hasDart_afterDart hd, fifo_received_full h .., overrun_received_full h ..⟩

/-- A read of a FIFO that holds a character: the answer and the channel left behind. -/
theorem read_pops {s : State} {k : Nat} {d : DartChip} {c : Side} (hd : s.hasDart k d) (h : (d.ch c).fifo.n ≠ 0) :
    ∃ t e, exec (.dartDataRead k c) s = .next t ∧ t.answer = .byte (d.ch c).fifo.data.x0 ∧ t.hasDart k e ∧
      e.ch c = (d.ch c).popped :=
  ⟨_, _, exec_dartDataRead_pops hd h, rfl, hasDart_afterDart hd, DartChip.ch_setCh ..⟩

/-! Modem lines (R260). -/

theorem lineStatus_eq (c : Side) (bit : Byte) (level : Level) (x : Act DartChip) :
    lineStatus c bit level x = { x with chip := x.chip.lineChanged c bit level } := by
  unfold lineStatus DartChip.lineChanged
  by_cases h : (x.chip.ch c).rr0Latch = true
  · rw [if_pos h, if_pos h]
  · rw [if_neg h, if_neg h]
    have hrr0 : (x.onCh c fun q => { q with rr0 := putBits (!level) q.rr0 bit }) =
        { x with chip := x.chip.withCh c fun q =>
            { q with rr0 := if level then q.rr0 &&& ~~~bit else q.rr0 ||| bit } } := by
      cases level <;> rfl
    dsimp only
    rw [hrr0]
    simp only [DartChip.withCh_eq, DartChip.ch_setCh, Channel.extIe]
    split <;> rfl

/-- The latch follows the pin, and on the asserting edge the auto-enable acts (R260). -/
theorem autoEnable_eq (c : Side) (l : Level) (x : Act DartChip) (auto : Channel → Channel) :
    autoEnable c l x auto = x.onCh c fun q => if !l && q.wr3.getLsbD 5 then auto q else q := by
  unfold autoEnable
  split
  · rename_i h
    exact (Act.onCh_congr (if_pos h)).symm
  · rename_i h
    exact (Act.onCh_self (if_neg h)).symm

section
variable (c : Side) (l : Level) (x : Act DartChip)

theorem ctsW_eq :
    ctsW c l x = { x with
      chip := if l = (x.chip.ch c).cts then x.chip
        else (x.chip.withCh c fun q =>
          { q with
            cts := l, wr5 := if !l && q.wr3.getLsbD 5 then q.wr5 ||| 0x08#8 else q.wr5 }).lineChanged c 0x20#8 l } := by
  unfold ctsW
  split
  · rfl
  · rw [lineStatus_eq, autoEnable_eq, Act.onCh_onCh]
    cases l <;> cases h : (x.chip.ch c).wr3.getLsbD 5 <;> simp [h, -BitVec.getLsbD_eq_getElem, ctsBit, setBits]

theorem dcdW_eq :
    dcdW c l x = { x with
      chip := if l = (x.chip.ch c).dcd then x.chip
        else (x.chip.withCh c fun q =>
          { q with
            dcd := l, wr3 := if !l && q.wr3.getLsbD 5 then q.wr3 ||| 0x01#8 else q.wr3 }).lineChanged c 0x08#8 l } := by
  unfold dcdW
  split
  · rfl
  · rw [lineStatus_eq, autoEnable_eq, Act.onCh_onCh]
    cases l <;> cases h : (x.chip.ch c).wr3.getLsbD 5 <;> simp [h, -BitVec.getLsbD_eq_getElem, dcdBit, setBits]

theorem riW_eq :
    riW c l x = { x with
      chip := if l = (x.chip.ch c).ri then x.chip
        else (x.chip.withCh c fun q => { q with ri := l }).lineChanged c 0x10#8 l } := by
  unfold riW
  split
  · rfl
  · rw [lineStatus_eq]
    rfl

end

/-! The obligations. -/

/-- Settles O39. -/
theorem dataWriteLatchesByte : Obligations.DataWriteLatchesByte := by
  intro s k d c v hd
  exact onDart_afterDart_none hd (f := fun d => dartDataWrite c v (Act.begin d)) rfl rfl

/-- Settles O40: the FIFO's count decides. -/
theorem dataReadPopsFifo : Obligations.DataReadPopsFifo := by
  intro s k d c hd
  refine ⟨fun h => ?_, fun h => exec_dartDataRead_pops hd h⟩
  refine (onDart_of_hasDart hd fun d => dartDataRead c (Act.begin d)).trans ?_
  rw [dartDataRead_empty (x := Act.begin d) h, commit_dart_any _ _ _ rfl rfl]
  rfl

/-- Settles O41: by the FIFO's count; `receive_data` is the same with no flags. -/
theorem receiveDataFillsFifo : Obligations.ReceiveDataFillsFifo := by
  refine ⟨fun x c v err => ⟨fun h => ?_, fun h => ?_⟩, fun s k d c v hd => ⟨fun h => ?_, fun h => ?_⟩⟩
  · rw [rxPush_eq, received_room h]
    simp only [special_iff]
    rfl
  · rw [rxPush_eq, received_full h]
    rfl
  · rw [exec_dartReceiveData c v hd, received_room h, special_noFlags, if_neg Bool.false_ne_true]
    rfl
  · rw [exec_dartReceiveData c v hd, received_full h]
    rfl

/-- Settles O42: four arrivals and three reads, each by its own rule, on the FIFO they leave behind. -/
theorem fifoOrderAndOverrun : Obligations.FifoOrderAndOverrun := by
  intro s k d c v0 v1 v2 v3 hd h0
  obtain ⟨s0, d0, hs0, hd0, f0⟩ := receive_room v0 hd (c := c) (by omega)
  obtain ⟨s1, d1, hs1, hd1, f1⟩ := receive_room v1 hd0 (c := c) (by simp [f0, h0, Channel.stored])
  obtain ⟨s2, d2, hs2, hd2, f2⟩ := receive_room v2 hd1 (c := c) (by simp [f1, f0, h0, Channel.stored])
  obtain ⟨hn, hdata⟩ : (d2.ch c).fifo.n = 3 ∧ (d2.ch c).fifo.data = ⟨v0, v1, v2⟩ := by
    simp [f2, f1, f0, h0, Channel.stored]
  obtain ⟨s3, e, hs3, he, fe, hov⟩ := receive_full v3 hd2 hn
  obtain ⟨hne, hdatae⟩ : (e.ch c).fifo.n = 3 ∧ (e.ch c).fifo.data = ⟨v0, v1, v2⟩ := by
    simp [fe, Channel.lost, hn, hdata]
  obtain ⟨r0, e0, hr0, ha0, he0, p0⟩ := read_pops he (c := c) (by omega)
  obtain ⟨r1, e1, hr1, ha1, he1, p1⟩ := read_pops he0 (c := c) (by simp [p0, Channel.popped, hne])
  have hn1 : (e1.ch c).fifo.n = 1 := by simp [p1, p0, Channel.popped, hne]
  obtain ⟨r2, e2, hr2, ha2, he2, p2⟩ := read_pops he1 (c := c) (by omega)
  refine ⟨s0, s1, s2, s3, r0, r1, r2, e, e2, hs0, hs1, hs2, hs3, he, hne, hov, hr0, ?_, hr1, ?_, hr2, ?_, he2, ?_, ?_,
    ?_⟩
  · rw [ha0, hdatae]
  · simp [ha1, p0, Channel.popped, hdatae]
  · simp [ha2, p1, p0, Channel.popped, hdatae]
  · simp [p2, Channel.popped, hn1]
  · rw [p2]
    exact overrun_popped (p1 ▸ overrun_popped (p0 ▸ overrun_popped hov))
  · rw [p2]
    exact rxAvail_popped hn1

/-- Settles O43: no edge leaves the chip as it was; an edge moves the latch, the auto-enable and then RR0. -/
theorem modemLineInputs : Obligations.ModemLineInputs := by
  intro s k d c l hd
  refine ⟨?_, ?_, ?_⟩
  · exact onDart_afterDart_none hd (f := fun d => ctsW c l (Act.begin d)) (ctsW_eq c l _) rfl
  · exact onDart_afterDart_none hd (f := fun d => dcdW c l (Act.begin d)) (dcdW_eq c l _) rfl
  · exact onDart_afterDart_none hd (f := fun d => riW c l (Act.begin d)) (riW_eq c l _) rfl

end Sys2Proof.Machine
end

section
/-! DART dividers and framing machines: one clock pulse, one bit-time in each state, and whole characters (R280 to
R306). -/

-- One proof at a time: the check then needs fewer threads, each of which takes part of its memory.
set_option Elab.async false

namespace Sys2Proof.Machine

open Sys2Proof

/-! Receive bit-times, state by state (R290 to R296). -/

section
variable {c : Side} {x : Act DartChip}

theorem rxStep_start (h : (x.chip.ch c).rxState = .start) : rxStep c x = rxStart c x := by simp only [rxStep, h]
theorem rxStep_data (h : (x.chip.ch c).rxState = .data) : rxStep c x = rxData c x := by simp only [rxStep, h]
theorem rxStep_parity (h : (x.chip.ch c).rxState = .parity) : rxStep c x = rxParity c x := by simp only [rxStep, h]
theorem rxStep_stop (h : (x.chip.ch c).rxState = .stop) : rxStep c x = rxStop c x := by simp only [rxStep, h]
theorem rxStep_stop2 (h : (x.chip.ch c).rxState = .stop2) : rxStep c x = rxStop2 c x := by simp only [rxStep, h]

theorem txStep_start (h : (x.chip.ch c).txState = .start) : txStep c x = txStart c x := by simp only [txStep, h]
theorem txStep_data (h : (x.chip.ch c).txState = .data) : txStep c x = txData c x := by simp only [txStep, h]
theorem txStep_parity (h : (x.chip.ch c).txState = .parity) : txStep c x = txParity c x := by simp only [txStep, h]
theorem txStep_stop (h : (x.chip.ch c).txState = .stop) : txStep c x = txStop c x := by simp only [txStep, h]
theorem txStep_stop2 (h : (x.chip.ch c).txState = .stop2) : txStep c x = txStop2 c x := by simp only [txStep, h]

end

/-- The framing state after the last data bit. -/
def Channel.afterData (q : Channel) : Frame := if q.wr4.getLsbD 0 then .parity else .stop

/-- The bit enters at the top (R292). -/
theorem shiftIn_byte (w : Byte) (b : Bool) :
    (w >>> 1) ||| (BitVec.ofBool b ++ 0#7) = BitVec.ofBool b ++ w.extractLsb' 1 7 := by
  cases b <;> revert w <;> decide

theorem shiftIn_eq {q : Channel} (h : q.rxState = .data) (b : Level) :
    q.shiftIn b =
      { q with
        rxShift := BitVec.ofBool b ++ q.rxShift.extractLsb' 1 7, rxPar := xor q.rxPar b, rxBits := q.rxBits + 1,
        rxState := if q.rxBits + 1 < q.rxWl then .data else q.afterData } := by
  simp only [Channel.shiftIn, shiftIn_byte, h]
  by_cases hn : q.rxBits + 1 < q.rxWl
  · rw [if_pos hn, if_neg (by omega)]
  · rw [if_neg hn, if_pos (by omega)]
    rfl

/-- The bit leaves at the bottom (R302). -/
theorem shiftOut_byte (w : Byte) : w >>> 1 = 0#1 ++ w.extractLsb' 1 7 := by revert w; decide

theorem shiftOut_eq {q : Channel} (h : q.txState = .data) :
    q.shiftOut =
      { q with
        txShift := 0#1 ++ q.txShift.extractLsb' 1 7, txPar := xor q.txPar (q.txShift.getLsbD 0),
        txBits := q.txBits + 1, txState := if q.txBits + 1 < q.txWl then .data else q.afterData } := by
  simp only [Channel.shiftOut, shiftOut_byte, h]
  by_cases hn : q.txBits + 1 < q.txWl
  · rw [if_pos hn, if_neg (by omega)]
  · rw [if_neg hn, if_pos (by omega)]
    rfl

section
variable (c : Side) (x : Act DartChip)

theorem rxStart_eq :
    rxStart c x =
      if (x.chip.ch c).wr3.getLsbD 0 = true ∧ (x.chip.ch c).rxd = false then
        x.onCh c fun r => { r with rxShift := 0x00#8, rxBits := 0, rxPar := false, rxErr := 0x00#8, rxState := .data }
      else x := by
  simp only [rxStart, Channel.rxEn, rxdNow, Bool.and_eq_true, Bool.not_eq_true']

variable {x} in
theorem rxData_eq (h : (x.chip.ch c).rxState = .data) :
    rxData c x =
      x.onCh c fun r =>
        { r with
          rxShift := BitVec.ofBool r.rxd ++ r.rxShift.extractLsb' 1 7, rxPar := xor r.rxPar r.rxd,
          rxBits := r.rxBits + 1, rxState := if r.rxBits + 1 < r.rxWl then .data else r.afterData } :=
  Act.onCh_congr (shiftIn_eq h _)

/-- The parity bit is not the one the accumulator asks for (R289, R294). -/
def Channel.wrongParity (q : Channel) : Bool := q.rxd != if q.wr4.getLsbD 1 then q.rxPar else !q.rxPar

theorem rxParity_eq :
    rxParity c x =
      (if (x.chip.ch c).wrongParity then
        (if (x.chip.ch c).wr1.extractLsb' 3 2 = 0b10#2 then
          (x.onCh c fun r => { r with rxErr := r.rxErr ||| 0x10#8 }).raiseInt c 3#2
        else x.onCh c fun r => { r with rxErr := r.rxErr ||| 0x10#8 })
      else x).onCh c fun r => { r with rxState := .stop } := by
  simp only [rxParity, Channel.rxIm, rxdNow, parityBit, Channel.parEven, beq_iff_eq]
  rfl

theorem sampleStop_eq :
    sampleStop c x = x.onCh c fun r => { r with rxErr := if r.rxd then r.rxErr else r.rxErr ||| 0x40#8 } := by
  unfold sampleStop rxdNow
  split
  · rename_i h
    exact (Act.onCh_self (by rw [if_pos h])).symm
  · rename_i h
    exact Act.onCh_congr (by simp [h, setBits, framing])

/-- The delivery of the character in the shift register, its stop bit just sampled (R293, R295, R296). -/
def delivered : Act DartChip :=
  let sampled := x.onCh c fun r => { r with rxErr := if r.rxd then r.rxErr else r.rxErr ||| 0x40#8 }
  (rxPush c (x.chip.ch c).rxShift (sampled.chip.ch c).rxErr sampled).onCh c fun r => { r with rxState := .start }

theorem rxStop2_eq : rxStop2 c x = delivered c x := by
  rw [rxStop2, sampleStop_eq, deliver, delivered, Act.onCh_chip, DartChip.ch_setCh]

theorem rxStop_eq :
    rxStop c x =
      if (x.chip.ch c).wr4.extractLsb' 2 2 = 0b01#2 then delivered c x
      else (x.onCh c fun r => { r with rxErr := if r.rxd then r.rxErr else r.rxErr ||| 0x40#8 }).onCh c fun r =>
        { r with rxState := .stop2 } := by
  simp only [rxStop, sampleStop_eq, Channel.oneStop, beq_iff_eq]
  split
  · rw [deliver, delivered, Act.onCh_chip, DartChip.ch_setCh]
  · rfl

/-! Transmit bit-times, state by state (R301 to R306). -/

/-- The line driven to a level (R11). -/
theorem driveTxd_eq (l : Level) :
    x.driveTxd c l = (x.onCh c fun r => { r with txd := l }).emit (.txd c l) := rfl

theorem driveTxd_not (b : Bool) :
    (if b = true then x.driveTxd c false else x.driveTxd c true) = x.driveTxd c (!b) := by
  cases b <;> rfl

theorem Act.emit_onCh (e : Signal) (f : Channel → Channel) : (x.emit e).onCh c f = (x.onCh c f).emit e := rfl

theorem txStart_eq :
    txStart c x =
      if (x.chip.ch c).wr5.getLsbD 3 = true ∧ (x.chip.ch c).rr0.getLsbD 2 = false then
        let y := (x.onCh c fun r =>
          { r with txd := false, txShift := r.txData, txBits := 0, txPar := false, rr0 := r.rr0 ||| 0x04#8 }).emit
            (.txd c false)
        (if (x.chip.ch c).wr1.getLsbD 1 then y.raiseInt c 0#2 else y).onCh c fun r => { r with txState := .data }
      else x.driveTxd c (!(x.chip.ch c).wr5.getLsbD 4) := by
  simp only [txStart, Channel.txEn, Channel.txIe, Channel.sendBreak, txEmpty, hasBits_bit2, Bool.and_eq_true,
    Bool.not_eq_true']
  split
  · simp only [driveTxd_eq, Act.emit_onCh, Act.onCh_onCh]
    rfl
  · exact driveTxd_not ..

variable {x} in
theorem txData_eq (h : (x.chip.ch c).txState = .data) :
    txData c x =
      (x.driveTxd c ((x.chip.ch c).txShift.getLsbD 0)).onCh c fun r =>
        { r with
          txShift := 0#1 ++ r.txShift.extractLsb' 1 7, txPar := xor r.txPar (r.txShift.getLsbD 0),
          txBits := r.txBits + 1, txState := if r.txBits + 1 < r.txWl then .data else r.afterData } :=
  Act.onCh_congr (shiftOut_eq (by simpa using h))

/-- The end of a character (R306): all sent unless a byte waits, and then the deferred release of RTS. -/
def finished : Act DartChip :=
  let q := x.chip.ch c
  let sent := (x.driveTxd c true).onCh c fun r => { r with rr1 := r.rr1 ||| 0x01#8 }
  (if q.rr0.getLsbD 2 = false then x.driveTxd c true
    else if q.wr5.getLsbD 1 = false ∧ q.rts = false then sent.driveRts c true
    else sent).onCh c fun r => { r with txState := .start }

theorem txFinish_eq :
    (txFinish c (x.driveTxd c true)).onCh c (fun r => { r with txState := .start }) = finished c x := by
  simp only [txFinish, finished, txEmpty, hasBits_bit2, Channel.rtsBit, Act.driveTxd_chip, Act.onCh_chip,
    DartChip.ch_setCh]
  cases (x.chip.ch c).rr0.getLsbD 2 <;> cases (x.chip.ch c).wr5.getLsbD 1 <;> cases (x.chip.ch c).rts <;> rfl

theorem txStop2_eq : txStop2 c x = finished c x := txFinish_eq c x

theorem txStop_eq :
    txStop c x =
      if (x.chip.ch c).wr4.extractLsb' 2 2 = 0b01#2 then finished c x
      else (x.driveTxd c true).onCh c fun r => { r with txState := .stop2 } := by
  simp only [txStop, Channel.oneStop, beq_iff_eq, txFinish_eq]

end

/-! The obligations on single pulses and bit-times. -/

/-- Settles O44: a pulse below the multiplier counts, the one that reaches it runs a bit-time. -/
theorem clockPulsesAndDivider : Obligations.ClockPulsesAndDivider := by
  refine ⟨fun x c => ?_, fun s k d hd =>
    ⟨onDart_of_hasDart hd _, onDart_of_hasDart hd _, onDart_of_hasDart hd _⟩⟩
  intro m
  have hm : (x.chip.ch c).mult = m := rfl
  constructor
  · simp only [rxClock, hm]
    split
    · rw [if_neg (by omega)]
    · rw [if_pos (by omega)]
  · simp only [txClock, hm]
    split
    · rw [if_neg (by omega)]
    · rw [if_pos (by omega)]

/-- Settles O45: the framing state selects the rule. -/
theorem receiveBitTimes : Obligations.ReceiveBitTimes := by
  intro x c
  refine ⟨fun h => ?_, fun h => ?_, fun h => ?_, fun h => ?_, fun h => ?_⟩
  · rw [rxStep_start h, rxStart_eq]
  · rw [rxStep_data h, rxData_eq c h]
    exact Act.onCh_congr rfl
  · rw [rxStep_parity h, rxParity_eq]
    simp only [Channel.wrongParity, bne_iff_ne]
    rfl
  · rw [rxStep_stop h, rxStop_eq]
    rfl
  · rw [rxStep_stop2 h, rxStop2_eq]
    rfl

/-- Settles O46: Start takes the waiting byte, or holds the line at break or mark. -/
theorem transmitStartState : Obligations.TransmitStartState := by
  intro x c h
  rw [txStep_start h, txStart_eq]
  rfl

/-- Settles O47: the framing state selects the rule. -/
theorem transmitBitTimes : Obligations.TransmitBitTimes := by
  intro x c
  refine ⟨fun h => ?_, fun h => ?_, fun h => ?_, fun h => ?_⟩
  · rw [txStep_data h, txData_eq c h]
    cases c <;> rfl
  · rw [txStep_parity h]
    rfl
  · rw [txStep_stop h, txStop_eq]
    rfl
  · rw [txStep_stop2 h, txStop2_eq]
    rfl

/-! A whole character received (R287 to R296). -/

theorem receiveLevels_append (c : Side) (ls ms : List Level) (x : Act DartChip) :
    receiveLevels c (ls ++ ms) x = receiveLevels c ms (receiveLevels c ls x) := List.foldl_append ..

theorem receiveLevels_singleton (c : Side) (l : Level) (x : Act DartChip) :
    receiveLevels c [l] x = rxStep c (x.onCh c fun q => { q with rxd := l }) := rfl

/-- A receiver in framing state `st` that has taken the low `j` bits of `v`, the line now at `l`. -/
def Channel.receiving (v : Byte) (j : Nat) (st : Frame) (l : Level) (q : Channel) : Channel :=
  { q with rxShift := v <<< (8 - j), rxBits := j, rxPar := dataParity v j, rxErr := 0x00#8, rxState := st, rxd := l }

/-- One more bit in the shift register. -/
theorem shiftIn_next (v : Byte) {j : Nat} (hj : j < 8) :
    BitVec.ofBool (v.getLsbD j) ++ (v <<< (8 - j)).extractLsb' 1 7 = v <<< (8 - (j + 1)) := by
  have hall : ∀ (i : Fin 8) (w : Byte),
      BitVec.ofBool (w.getLsbD i) ++ (w <<< (8 - i.val)).extractLsb' 1 7 = w <<< (8 - (i.val + 1)) := by decide
  exact hall ⟨j, hj⟩ v

section
variable {c : Side} {x : Act DartChip} {v : Byte}

/-- The start bit (R291). -/
theorem receive_startBit (hst : (x.chip.ch c).rxState = .start) (hen : (x.chip.ch c).wr3.getLsbD 0 = true) (v : Byte) :
    receiveLevels c [false] x = x.onCh c (Channel.receiving v 0 .data false) := by
  rw [receiveLevels_singleton, rxStep_start (by simpa using hst), rxStart_eq, if_pos ⟨by simpa using hen, by simp⟩,
    Act.onCh_onCh]
  refine Act.onCh_congr ?_
  simp [Channel.receiving, dataParity]

/-- One data bit (R292). -/
theorem receive_dataBit {j : Nat} (hj : j < (x.chip.ch c).rxWl) (l : Level) :
    receiveLevels c [v.getLsbD j] (x.onCh c (Channel.receiving v j .data l)) =
      x.onCh c (Channel.receiving v (j + 1)
        (if j + 1 < (x.chip.ch c).rxWl then .data else (x.chip.ch c).afterData) (v.getLsbD j)) := by
  have h8 : j < 8 := Nat.lt_of_lt_of_le hj (Channel.rxWl_bounds _).2
  rw [receiveLevels_singleton, rxStep_data (by simp [Channel.receiving]), rxData_eq c (by simp [Channel.receiving]),
    Act.onCh_onCh, Act.onCh_onCh]
  refine Act.onCh_congr ?_
  simp only [Channel.receiving, shiftIn_next v h8, dataParity]
  rfl

/-- The first `m` data bits. -/
theorem receive_dataBits {m : Nat} (hm : m ≤ (x.chip.ch c).rxWl) (l : Level) :
    ∃ l', receiveLevels c ((List.range m).map v.getLsbD) (x.onCh c (Channel.receiving v 0 .data l)) =
      x.onCh c (Channel.receiving v m (if m < (x.chip.ch c).rxWl then .data else (x.chip.ch c).afterData) l') := by
  induction m with
  | zero =>
    have hpos : 0 < (x.chip.ch c).rxWl := Nat.lt_of_lt_of_le (by decide) (Channel.rxWl_bounds _).1
    exact ⟨l, by rw [if_pos hpos]; rfl⟩
  | succ m ih =>
    obtain ⟨l', hl'⟩ := ih (by omega)
    rw [if_pos (by omega)] at hl'
    exact ⟨v.getLsbD m, by
      rw [List.range_succ, List.map_append, receiveLevels_append, hl', List.map_singleton, receive_dataBit hm]⟩

/-- The right parity bit, if there is one, is no error (R289, R294). -/
theorem receive_parityBit (n : Nat) (l : Level) :
    ∃ l', receiveLevels c
        (if (x.chip.ch c).wr4.getLsbD 0 then
          [if (x.chip.ch c).wr4.getLsbD 1 then dataParity v n else !dataParity v n] else [])
        (x.onCh c (Channel.receiving v n (x.chip.ch c).afterData l)) =
      x.onCh c (Channel.receiving v n .stop l') := by
  unfold Channel.afterData
  split
  · refine ⟨if (x.chip.ch c).wr4.getLsbD 1 then dataParity v n else !dataParity v n, ?_⟩
    rw [receiveLevels_singleton, rxStep_parity (by simp [Channel.receiving]), rxParity_eq, if_neg ?right, Act.onCh_onCh,
      Act.onCh_onCh]
    case right => simp [Channel.wrongParity, Channel.receiving]
    exact Act.onCh_congr rfl
  · exact ⟨l, rfl⟩

/-- A stop bit at 1 leaves the error flags as they are. -/
theorem delivered_receiving (n : Nat) (st : Frame) :
    delivered c (x.onCh c (Channel.receiving v n st true)) =
      (rxPush c (v <<< (8 - n)) 0x00#8 (x.onCh c (Channel.receiving v n st true))).onCh c fun r =>
        { r with rxState := .start } := by
  have hself : (x.onCh c (Channel.receiving v n st true)).onCh c
      (fun r => { r with rxErr := if r.rxd then r.rxErr else r.rxErr ||| 0x40#8 }) =
        x.onCh c (Channel.receiving v n st true) := Act.onCh_self (by simp [Channel.receiving])
  simp only [delivered, hself]
  simp [Channel.receiving]

/-- The stop bits (R295, R296): the character is delivered from framing state `st`. -/
theorem receive_stopBits (n : Nat) (l : Level) :
    ∃ st, receiveLevels c (if (x.chip.ch c).wr4.extractLsb' 2 2 == 0b01#2 then [true] else [true, true])
        (x.onCh c (Channel.receiving v n .stop l)) =
      (rxPush c (v <<< (8 - n)) 0x00#8 (x.onCh c (Channel.receiving v n st true))).onCh c fun r =>
        { r with rxState := .start } := by
  have hline (st : Frame) (l : Level) :
      (x.onCh c (Channel.receiving v n st l)).onCh c (fun q => { q with rxd := true }) =
        x.onCh c (Channel.receiving v n st true) := (Act.onCh_onCh ..).trans (Act.onCh_congr rfl)
  have hfirst : receiveLevels c [true] (x.onCh c (Channel.receiving v n .stop l)) =
      rxStop c (x.onCh c (Channel.receiving v n .stop true)) := by
    rw [receiveLevels_singleton, hline, rxStep_stop (by simp [Channel.receiving])]
  by_cases hone : (x.chip.ch c).wr4.extractLsb' 2 2 = 0b01#2
  · refine ⟨.stop, ?_⟩
    rw [if_pos (by simpa using hone), hfirst, rxStop_eq, if_pos (by simpa [Channel.receiving] using hone),
      delivered_receiving]
  · refine ⟨.stop2, ?_⟩
    rw [if_neg (by simpa using hone), show [true, true] = [true] ++ [true] from rfl, receiveLevels_append, hfirst,
      rxStop_eq, if_neg (by simpa [Channel.receiving] using hone), Act.onCh_onCh, Act.onCh_onCh,
      show x.onCh c _ = x.onCh c (Channel.receiving v n .stop2 true) from Act.onCh_congr (by simp [Channel.receiving]),
      receiveLevels_singleton, hline, rxStep_stop2 (by simp [Channel.receiving]), rxStop2_eq, delivered_receiving]

end

/-- The framing state plays no part in the report of an arrival. -/
theorem arrival_withRxState (d : DartChip) (c : Side) (k : BitVec 2) (st : Frame) :
    (d.arrival c k).withCh c (fun r => { r with rxState := st }) =
      (d.withCh c fun r => { r with rxState := st }).arrival c k := by
  have hreports : ((d.withCh c fun r => { r with rxState := st }).ch c).reports = (d.ch c).reports := by
    cases c <;> rfl
  rw [arrival_eq, arrival_eq, hreports]
  split
  · cases c <;> rfl
  · rfl

/-- Nor in the storing of a character. -/
theorem received_withRxState (d : DartChip) (c : Side) (v err : Byte) (st : Frame) :
    (d.received c v err).withCh c (fun r => { r with rxState := st }) =
      (d.withCh c fun r => { r with rxState := st }).received c v err := by
  have hfifo : ((d.withCh c fun r => { r with rxState := st }).ch c).fifo = (d.ch c).fifo := by cases c <;> rfl
  have hspecial : ((d.withCh c fun r => { r with rxState := st }).ch c).special err = (d.ch c).special err := by
    cases c <;> rfl
  unfold DartChip.received
  rw [hfifo, hspecial]
  split
  · rw [arrival_withRxState]
    cases c <;> rfl
  · rw [arrival_withRxState]
    cases c <;> rfl

theorem rxPush_withRxState (c : Side) (v err : Byte) (x : Act DartChip) (st : Frame) :
    (rxPush c v err x).onCh c (fun r => { r with rxState := st }) =
      rxPush c v err (x.onCh c fun r => { r with rxState := st }) := by
  rw [rxPush_eq, rxPush_eq]
  exact Act.ext_of (received_withRxState ..) rfl rfl

/-- Settles O48: the frame bit by bit; its delivery does not look at the framing state. -/
theorem framedCharacterIsReceived : Obligations.FramedCharacterIsReceived := by
  intro d c v hst hen q n w
  have hn : (d.ch c).rxWl = n := rfl
  have hstart := receive_startBit (x := Act.begin d) (c := c) hst hen v
  obtain ⟨l1, hdata⟩ := receive_dataBits (x := Act.begin d) (c := c) (v := v) (m := n) (Nat.le_of_eq hn.symm) false
  rw [Act.begin_chip, hn, if_neg (Nat.lt_irrefl n)] at hdata
  obtain ⟨l2, hparity⟩ := receive_parityBit (x := Act.begin d) (c := c) (v := v) n l1
  obtain ⟨st, hstop⟩ := receive_stopBits (x := Act.begin d) (c := c) (v := v) n l2
  rw [Act.begin_chip] at hparity hstop
  rw [frameLevels, receiveLevels_append, receiveLevels_append, receiveLevels_append, hstart, hdata, hparity, hstop,
    rxPush_withRxState, Act.onCh_onCh]
  rfl

/-! A whole character sent (R287, R301 to R306). -/

theorem transmitSteps_add (c : Side) (m n : Nat) (x : Act DartChip) :
    transmitSteps c (m + n) x = transmitSteps c n (transmitSteps c m x) := by
  induction m generalizing x with
  | zero => rw [Nat.zero_add]; rfl
  | succ m ih =>
    rw [Nat.succ_add]
    exact ih _

theorem transmitSteps_one (c : Side) (x : Act DartChip) : transmitSteps c 1 x = txStep c x := rfl

theorem txdLevels_append (c : Side) (es fs : List Signal) : txdLevels c (es ++ fs) = txdLevels c es ++ txdLevels c fs :=
  List.filterMap_append

@[simp] theorem txdLevels_txd (c : Side) (l : Level) : txdLevels c [.txd c l] = [l] := by simp [txdLevels]
@[simp] theorem txdLevels_rts (c c' : Side) (l : Level) : txdLevels c [.rts c' l] = [] := rfl

/-- In the middle of sending the character of `q`: the levels `ls` are driven, `j` data bits are out, the framing state
is `st`, and what decides the rest of the frame is as it was in `q`. -/
structure Sending (c : Side) (q : Channel) (ls : List Level) (j : Nat) (st : Frame) (x : Act DartChip) : Prop where
  state : (x.chip.ch c).txState = st
  shift : (x.chip.ch c).txShift = q.txData >>> j
  parity : (x.chip.ch c).txPar = dataParity q.txData j
  count : (x.chip.ch c).txBits = j
  empty : (x.chip.ch c).rr0.getLsbD 2 = true
  wr4 : (x.chip.ch c).wr4 = q.wr4
  wr5 : (x.chip.ch c).wr5 = q.wr5
  levels : txdLevels c x.out = ls

/-- The character of `q` is out: the levels `ls` are driven and the transmitter waits again. -/
structure Sent (c : Side) (q : Channel) (ls : List Level) (x : Act DartChip) : Prop where
  state : (x.chip.ch c).txState = .start
  empty : (x.chip.ch c).rr0.getLsbD 2 = true
  allSent : (x.chip.ch c).rr1.getLsbD 0 = true
  released : q.wr5.getLsbD 1 = false → (x.chip.ch c).rts = true
  levels : txdLevels c x.out = ls

section
variable {c : Side} {q : Channel} {ls : List Level} {j : Nat} {st : Frame} {x : Act DartChip}

/-- The start bit: the waiting byte is taken (R301). -/
theorem send_startBit {d : DartChip} (hst : (d.ch c).txState = .start) (hen : (d.ch c).wr5.getLsbD 3 = true)
    (hfull : (d.ch c).rr0.getLsbD 2 = false) : Sending c (d.ch c) [false] 0 .data (txStep c (Act.begin d)) := by
  have hempty (w : Byte) : (w ||| 0x04#8).getLsbD 2 = true := by simp
  have htaken (d' : DartChip) (h : ((d.withCh c fun r =>
      { r with txd := false, txShift := r.txData, txBits := 0, txPar := false, rr0 := r.rr0 ||| 0x04#8 }).ch
        c).sameButRequest (d'.ch c)) :
      Sending c (d.ch c) [false] 0 .data
        (({ Act.begin d' with out := [.txd c false] }).onCh c fun r => { r with txState := .data }) := by
    rw [DartChip.withCh_eq, DartChip.ch_setCh] at h
    have hch := DartChip.ch_setCh d' c { d'.ch c with txState := .data }
    constructor
    all_goals simp only [Act.onCh_chip, Act.onCh_out, Act.begin_chip, hch, txdLevels_txd]
    all_goals rw [h]
    · rfl
    · rfl
    · exact hempty _
  rw [txStep_start hst, txStart_eq, if_pos ⟨hen, hfull⟩]
  split
  · exact htaken _ (requested_sameButRequest ..)
  · exact htaken _ (Channel.sameButRequest.refl _)

/-- One data bit (R302). -/
theorem Sending.dataBit (h : Sending c q ls j .data x) :
    Sending c q (ls ++ [q.txData.getLsbD j]) (j + 1) (if j + 1 < q.txWl then .data else q.afterData) (txStep c x) := by
  rw [txStep_data h.state, txData_eq c h.state]
  have hbit : (x.chip.ch c).txShift.getLsbD 0 = q.txData.getLsbD j := by
    rw [h.shift, BitVec.getLsbD_ushiftRight, Nat.add_zero]
  have hwl : (x.chip.ch c).txWl = q.txWl := by rw [Channel.txWl, h.wr5, Channel.txWl]
  have hafter : (x.chip.ch c).afterData = q.afterData := by rw [Channel.afterData, h.wr4, Channel.afterData]
  constructor
  all_goals simp only [Act.onCh_chip, Act.onCh_out, DartChip.ch_setCh, Act.driveTxd_chip, Act.driveTxd_out]
  case state =>
    change (if (x.chip.ch c).txBits + 1 < (x.chip.ch c).txWl then Frame.data else (x.chip.ch c).afterData) = _
    rw [h.count, hwl, hafter]
  case shift => rw [← shiftOut_byte, h.shift, BitVec.shiftRight_add]
  case parity => rw [h.parity, hbit, dataParity]
  case count => rw [h.count]
  case empty => exact h.empty
  case wr4 => exact h.wr4
  case wr5 => exact h.wr5
  case levels => rw [txdLevels_append, h.levels, txdLevels_txd, hbit]

/-- The first `m` data bits. -/
theorem Sending.dataBits {m : Nat} (h : Sending c q ls 0 .data x) (hm : m ≤ q.txWl) :
    Sending c q (ls ++ (List.range m).map q.txData.getLsbD) m (if m < q.txWl then .data else q.afterData)
      (transmitSteps c m x) := by
  induction m with
  | zero =>
    have hpos : 0 < q.txWl := Nat.lt_of_lt_of_le (by decide) (Channel.txWl_bounds _).1
    rw [if_pos hpos, List.range_zero, List.map_nil, List.append_nil]
    exact h
  | succ m ih =>
    have hlast := ih (by omega)
    rw [if_pos (by omega)] at hlast
    rw [transmitSteps_add, transmitSteps_one, List.range_succ, List.map_append, ← List.append_assoc]
    exact hlast.dataBit

/-- The line driven to `l` at the end of an element of the frame, and the framing state moved on. -/
theorem Sending.element (h : Sending c q ls j st x) (l : Level) (st' : Frame) :
    Sending c q (ls ++ [l]) j st' ((x.driveTxd c l).onCh c fun r => { r with txState := st' }) := by
  constructor
  all_goals simp only [Act.onCh_chip, Act.onCh_out, DartChip.ch_setCh, Act.driveTxd_chip, Act.driveTxd_out]
  case shift => exact h.shift
  case parity => exact h.parity
  case count => exact h.count
  case empty => exact h.empty
  case wr4 => exact h.wr4
  case wr5 => exact h.wr5
  case levels => rw [txdLevels_append, h.levels, txdLevels_txd]

/-- The parity bit, if there is one (R303). -/
theorem Sending.parityBit (h : Sending c q ls j q.afterData x) :
    Sending c q
      (ls ++
        if q.wr4.getLsbD 0 then [if q.wr4.getLsbD 1 then dataParity q.txData j else !dataParity q.txData j] else [])
      j .stop
      (transmitSteps c
        (if q.wr4.getLsbD 0 then [if q.wr4.getLsbD 1 then dataParity q.txData j else !dataParity q.txData j]
          else []).length x) := by
  unfold Channel.afterData at h
  split at h
  · rename_i hp
    have hbit : Machine.parityBit (x.chip.ch c).parEven (x.chip.ch c).txPar =
        if q.wr4.getLsbD 1 then dataParity q.txData j else !dataParity q.txData j := by
      rw [Channel.parEven, h.wr4, h.parity, Machine.parityBit]
    rw [if_pos hp, List.length_singleton, transmitSteps_one, txStep_parity h.state, txParity, hbit]
    exact h.element _ _
  · rename_i hp
    rw [if_neg hp, List.append_nil]
    exact h

/-- The last stop bit: with no further byte waiting all is sent (R306). -/
theorem Sending.finished (h : Sending c q ls j st x) : Sent c q (ls ++ [true]) (finished c x) := by
  have hbit (w : Byte) : (w ||| 0x01#8).getLsbD 0 = true := by simp
  unfold Machine.finished
  dsimp only
  rw [if_neg (by simp [h.empty]), h.wr5]
  split
  · constructor
    all_goals simp only [Act.onCh_chip, Act.onCh_out, DartChip.ch_setCh, Act.driveTxd_chip, Act.driveTxd_out,
      Act.driveRts_chip, Act.driveRts_out, txdLevels_append, txdLevels_txd, txdLevels_rts, List.append_nil, h.levels,
      implies_true]
    case empty => exact h.empty
    case allSent => exact hbit _
  · rename_i hrts
    constructor
    all_goals simp only [Act.onCh_chip, Act.onCh_out, DartChip.ch_setCh, Act.driveTxd_chip, Act.driveTxd_out,
      txdLevels_append, txdLevels_txd, h.levels]
    case empty => exact h.empty
    case allSent => exact hbit _
    case released => exact fun hb => Bool.of_not_eq_false fun hr => hrts ⟨hb, hr⟩

/-- The stop bits (R304, R305). -/
theorem Sending.stopBits (h : Sending c q ls j .stop x) :
    Sent c q (ls ++ if q.wr4.extractLsb' 2 2 == 0b01#2 then [true] else [true, true])
      (transmitSteps c (if q.wr4.extractLsb' 2 2 == 0b01#2 then [true] else [true, true]).length x) := by
  by_cases hone : q.wr4.extractLsb' 2 2 = 0b01#2
  · rw [if_pos (by simpa using hone), List.length_singleton, transmitSteps_one, txStep_stop h.state, txStop_eq,
      if_pos (by rw [h.wr4]; exact hone)]
    exact h.finished
  · have hnext := h.element true .stop2
    rw [if_neg (by simpa using hone), show [true, true] = [true] ++ [true] from rfl, List.length_append,
      transmitSteps_add, List.length_singleton, transmitSteps_one, transmitSteps_one, txStep_stop h.state, txStop_eq,
      if_neg (by rw [h.wr4]; exact hone), txStep_stop2 hnext.state, txStop2_eq, ← List.append_assoc]
    exact hnext.finished

/-- Start bit, data bits, parity bit and stop bits, one bit-time each (R287). -/
theorem sent_frame {d : DartChip} (hst : (d.ch c).txState = .start) (hen : (d.ch c).wr5.getLsbD 3 = true)
    (hfull : (d.ch c).rr0.getLsbD 2 = false) :
    let ls := frameLevels (d.ch c).txWl ((d.ch c).wr4.getLsbD 0) ((d.ch c).wr4.getLsbD 1)
      ((d.ch c).wr4.extractLsb' 2 2 == 0b01#2) (d.ch c).txData
    Sent c (d.ch c) ls (transmitSteps c ls.length (Act.begin d)) := by
  have hdata := (send_startBit hst hen hfull).dataBits (Nat.le_refl _)
  rw [if_neg (Nat.lt_irrefl _)] at hdata
  dsimp only [frameLevels]
  rw [List.length_append, List.length_append, List.length_append, transmitSteps_add, transmitSteps_add,
    transmitSteps_add, List.length_singleton, transmitSteps_one, List.length_map, List.length_range]
  exact hdata.parityBit.stopBits

end

/-- Settles O49: what the sent frame leaves behind. -/
theorem transmitterSendsFrame : Obligations.TransmitterSendsFrame := by
  intro d c hst hen hfull
  obtain ⟨hstate, hempty, hall, hreleased, hlevels⟩ := sent_frame hst hen hfull
  exact ⟨hlevels, hstate, hempty, hall, hreleased⟩

end Sys2Proof.Machine
end

section
/-! The interrupt contract: the arbiter, the acknowledge and the return of one chip, and the chain (R320 to R332,
R351 to R356). -/

-- One proof at a time: the check then needs fewer threads, each of which takes part of its memory.
set_option Elab.async false

namespace Sys2Proof.Machine

open Sys2Proof

/-! The arbiter (R321, R322). -/

/-- A channel is enabled when WR1 enables external/status, transmit or a receive mode other than 0 (R321). -/
theorem enabled_eq (q : Channel) : q.enabled = (q.wr1 &&& 0x1B#8 != 0#8) := by
  have hall : ∀ w : Byte,
      (w.getLsbD 0 || w.getLsbD 1 || w.extractLsb' 3 2 != 0b00#2) = (w &&& 0x1B#8 != 0#8) := by decide
  exact hall q.wr1

/-- The two sources after the scan, from the two before it. -/
def Arbitrated (enA enB : Bool) (a b a' b' : Source) : Prop :=
  a'.ieo = a.ieo ∧ b'.ieo = b.ieo ∧
  (enA = false → a'.int = false ∧ a'.ip = a.ip) ∧
  (enA = true → a.ip = true → a'.int = true ∧ a'.ip = false) ∧
  (enA = true → a.ip = false → a' = a) ∧
  (enB = false → b'.int = false ∧ b'.ip = b.ip) ∧
  (enB = true → b.ip = true → ¬(enA = true ∧ a.ip = true) → b'.int = true ∧ b'.ip = false) ∧
  (enB = true → (b.ip = false ∨ (enA = true ∧ a.ip = true)) → b' = b)

theorem settle_disabled (s : Source) {en : Bool} (free : Bool) (h : en = false) :
    (s.settle en free).int = false ∧ (s.settle en free).ip = s.ip := by
  subst h
  exact ⟨rfl, rfl⟩

theorem settle_promoted {s : Source} {en free : Bool} (h : en = true) (hip : s.ip = true) (hfree : free = true) :
    (s.settle en free).int = true ∧ (s.settle en free).ip = false := by
  simp [Source.settle, h, hip, hfree]

theorem settle_waits {s : Source} {en free : Bool} (h : en = true) (hno : s.ip = false ∨ free = false) :
    s.settle en free = s := by
  rcases hno with hip | hfree
  · simp [Source.settle, h, hip]
  · simp [Source.settle, h, hfree]

/-- The scan, with source B's turn only if source A was not promoted. -/
theorem arbitrated_settle (enA enB : Bool) (a b : Source) :
    Arbitrated enA enB a b (a.settle enA true) (b.settle enB (!(enA && a.ip))) :=
  ⟨Source.settle_ieo .., Source.settle_ieo .., settle_disabled _ _, fun h hip => settle_promoted h hip rfl,
    fun h hip => settle_waits h (.inl hip), settle_disabled _ _,
    fun h hip hfree => settle_promoted h hip (by rwa [Bool.not_eq_true', ← Bool.not_eq_true, Bool.and_eq_true]),
    fun h hno => settle_waits h (hno.imp_right (by simp))⟩

/-- Settles O50: the scan on the two sources; everything else stands. -/
theorem arbiterPromotesOneSource : Obligations.ArbiterPromotesOneSource := by
  refine ⟨fun c => ⟨arbitrated_settle .., rfl⟩, fun d => ⟨?_, rfl⟩⟩
  have h := arbitrated_settle d.a.enabled d.b.enabled d.a.src d.b.src
  simp only [enabled_eq] at h
  simp only [DartChip.checkInterrupt_a, DartChip.checkInterrupt_b, enabled_eq]
  exact h

/-! The scan of one chip (R324). -/

theorem Chip.irqState_eq (c : Chip) : c.irqState = irqScan c.sources.1 c.sources.2 := by cases c <;> rfl

theorem irqScan_eq (a b : Source) :
    irqScan a b = { int := !a.ieo && (a.int || (!b.ieo && b.int)), ieo := a.ieo || b.ieo } := by
  unfold irqScan
  cases a.ieo <;> cases b.ieo <;> simp

/-- An operation that leaves the chip as it was, drives nothing and draws no free byte changes only the result. -/
theorem commit_unchanged {s : State} {k : Nat} {c : Chip} (hc : s.chips[k]? = some c) (r : Irq) :
    s.commit k ((Act.begin c).replyWith (.irq r)) = { s with answer := .irq r } := by
  simp [State.commit, set_of_get hc, Reply.toAnswer, Reply.cost]

/-- Settles O51: the scan by the two sources. -/
theorem irqStateScan : Obligations.IrqStateScan := by
  intro s k c hc
  have hscan := c.irqState_eq.trans (irqScan_eq c.sources.1 c.sources.2)
  refine ⟨?_, fun ha => ?_, fun hb ha => ?_⟩
  · refine (onChip_of_get hc _).trans ?_
    rw [commit_unchanged hc, hscan]
  · simp [Chip.intLine, hscan, ha]
  · simp [Chip.intLine, hscan, ha, hb]

/-! Acknowledge and return, by the first source (R325 to R327). -/

theorem PioChip.irqAck_eq (c : PioChip) :
    c.irqAck =
      if c.a.src.int then
        { chip := (c.withPort .a fun q => { q with src := q.src.acked }).checkInterrupt, out := [],
          reply := .byte c.a.vector }
      else if c.b.src.int then
        { chip := (c.withPort .b fun q => { q with src := q.src.acked }).checkInterrupt, out := [],
          reply := .byte c.b.vector }
      else { chip := c, out := [.diagnostic .ackWithoutRequest], reply := .byte c.a.vector } := by
  unfold PioChip.irqAck firstInt
  cases c.a.src.int <;> cases c.b.src.int <;> rfl

theorem DartChip.irqAck_eq (d : DartChip) :
    d.irqAck =
      if d.a.src.int then
        { chip := (d.withCh .a fun q => { q with src := q.src.acked }).checkInterrupt, out := [],
          reply := .byte (d.vectorOf .a) }
      else if d.b.src.int then
        { chip := (d.withCh .b fun q => { q with src := q.src.acked }).checkInterrupt, out := [],
          reply := .byte (d.vectorOf .b) }
      else { chip := d, out := [.diagnostic .ackWithoutRequest], reply := .byte (d.vectorOf .a) } := by
  unfold DartChip.irqAck firstInt
  cases d.a.src.int <;> cases d.b.src.int <;> rfl

theorem PioChip.irqReti_eq (x : Act PioChip) :
    PioChip.irqReti x =
      if x.chip.a.src.ieo then
        { x with chip := (x.chip.withPort .a fun q => { q with src := q.src.released }).checkInterrupt }
      else if x.chip.b.src.ieo then
        { x with chip := (x.chip.withPort .b fun q => { q with src := q.src.released }).checkInterrupt }
      else x.emit (.diagnostic .retiWithoutService) := by
  unfold PioChip.irqReti firstIeo
  cases x.chip.a.src.ieo <;> cases x.chip.b.src.ieo <;> rfl

/-- Settles O52: the first requesting source, else the diagnostic. -/
theorem acknowledgeTakesFirstRequest : Obligations.AcknowledgeTakesFirstRequest := by
  refine ⟨fun s k c hc => ?_, fun s k d hd => ?_⟩
  · refine (onChip_of_get hc _).trans ?_
    rw [Chip.irqAck, PioChip.irqAck_eq, commit_pio s k _ (by split_ifs <;> simp)]
    split_ifs <;> rfl
  · refine (onChip_of_get hd _).trans ?_
    rw [Chip.irqAck, DartChip.irqAck_eq, commit_dart s k _ (by split_ifs <;> simp)]
    split_ifs <;> rfl

/-- Settles O53: the first source under service, else the diagnostic. -/
theorem returnReleasesFirstService : Obligations.ReturnReleasesFirstService := by
  refine ⟨fun s k c hc => ?_, fun s k d hd => ?_⟩
  · refine (onChip_of_get hc _).trans ?_
    rw [Chip.irqReti, PioChip.irqReti_eq, commit_pio s k _ (by split_ifs <;> simp), Act.begin_chip]
    split_ifs <;> rfl
  · refine (onChip_of_get hd _).trans ?_
    rw [Chip.irqReti, DartChip.irqReti_eq, commit_dart s k _ (by split_ifs <;> simp), Act.begin_chip]
    split_ifs <;> rfl

/-! The chain (R351 to R355). -/

/-- Settles O54: the walk of the chain. -/
theorem chainRequestIsFirstUnblocked : Obligations.ChainRequestIsFirstUnblocked := by
  intro s
  refine ⟨s.requester, rfl, rfl, fun k => ?_⟩
  rw [State.requester, requesterFrom_some]
  simp

/-- An acknowledge of a chip whose source A requests. -/
theorem Chip.irqAck_a {c : Chip} (h : c.sources.1.int = true) :
    c.irqAck.out = [] ∧ c.irqAck.reply = .byte (c.vector .a) ∧ c.irqAck.chip.sources.1.ieo = true := by
  cases c with
  | pio c =>
    change c.a.src.int = true at h
    rw [Chip.irqAck, PioChip.irqAck_eq, if_pos h]
    exact ⟨rfl, rfl, Source.settle_ieo ..⟩
  | dart d =>
    change d.a.src.int = true at h
    rw [Chip.irqAck, DartChip.irqAck_eq, if_pos h]
    exact ⟨rfl, rfl, Source.settle_ieo ..⟩

/-- An acknowledge of a chip whose source B alone requests. -/
theorem Chip.irqAck_b {c : Chip} (ha : c.sources.1.int = false) (hb : c.sources.2.int = true) :
    c.irqAck.out = [] ∧ c.irqAck.reply = .byte (c.vector .b) ∧ c.irqAck.chip.sources.2.ieo = true := by
  cases c with
  | pio c =>
    change c.a.src.int = false at ha
    change c.b.src.int = true at hb
    rw [Chip.irqAck, PioChip.irqAck_eq, if_neg (Bool.eq_false_iff.mp ha), if_pos hb]
    exact ⟨rfl, rfl, Source.settle_ieo ..⟩
  | dart d =>
    change d.a.src.int = false at ha
    change d.b.src.int = true at hb
    rw [Chip.irqAck, DartChip.irqAck_eq, if_neg (Bool.eq_false_iff.mp ha), if_pos hb]
    exact ⟨rfl, rfl, Source.settle_ieo ..⟩

/-- A chip that requests has a requesting source. -/
theorem requests_of_irqState {c : Chip} (h : c.irqState.int = true) (ha : c.sources.1.int = false) :
    c.sources.2.int = true := by
  rw [Chip.irqState_eq, irqScan_eq] at h
  simp [ha] at h
  exact h.2.2

/-- A chip under service takes the return without a diagnostic. -/
theorem Chip.irqReti_out {c : Chip} (h : c.irqState.ieo = true) : c.irqReti.out = [] := by
  rw [Chip.irqState_eq, irqScan_eq, Bool.or_eq_true] at h
  cases c with
  | pio c =>
    change c.a.src.ieo = true ∨ c.b.src.ieo = true at h
    rw [Chip.irqReti, PioChip.irqReti_eq, Act.begin_chip]
    by_cases ha : c.a.src.ieo = true
    · rw [if_pos ha]
      rfl
    · rw [if_neg ha, if_pos (h.resolve_left ha)]
      rfl
  | dart d =>
    change d.a.src.ieo = true ∨ d.b.src.ieo = true at h
    rw [Chip.irqReti, DartChip.irqReti_eq, Act.begin_chip]
    by_cases ha : d.a.src.ieo = true
    · rw [if_pos ha]
      rfl
    · rw [if_neg ha, if_pos (h.resolve_left ha)]
      rfl

theorem exec_chainAck_some {s : State} {k : Nat} (h : s.requester = some k) :
    exec .chainAck s = exec (.irqAck k) s := by
  change execChainAck s = execIrqAck k s
  rw [execChainAck, h, execIrqAck]

theorem exec_chainAck_none {s : State} (h : s.requester = none) :
    exec .chainAck s = .next { s with answer := .byte (Config.freeByte s.draws), draws := s.draws + 1 } := by
  change execChainAck s = _
  rw [execChainAck, h]

theorem exec_chainReti_some {s : State} {k : Nat} (h : s.served = some k) :
    exec .chainReti s = exec (.irqReti k) s := by
  change execChainReti s = execIrqReti k s
  rw [execChainReti, h, execIrqReti]

theorem exec_chainReti_none {s : State} (h : s.served = none) :
    exec .chainReti s = .next { s with answer := .none, trace := s.trace ++ [.chain .retiWithoutService] } := by
  change execChainReti s = _
  rw [execChainReti, h]

/-- Settles O55: the walks of the chain, then the operation of the one chip. -/
theorem chainAcknowledgeAndReturn : Obligations.ChainAcknowledgeAndReturn := by
  intro s
  refine ⟨fun k c hk hc => ?_, exec_chainAck_none, fun k hserved hfirst => ?_, fun hnone => ?_⟩
  · have hack : exec (.irqAck k) s = .next (s.commit k c.irqAck) := onChip_of_get hc _
    obtain ⟨-, ⟨c', hc', hint⟩, -⟩ := requesterFrom_some.mp hk
    obtain rfl : c' = c := Option.some.inj (hc'.symm.trans hc)
    have hquiet : c'.irqAck.out = [] := by
      by_cases ha : c'.sources.1.int = true
      · exact (Chip.irqAck_a ha).1
      · exact (Chip.irqAck_b (Bool.eq_false_iff.mpr ha) (requests_of_irqState hint (Bool.eq_false_iff.mpr ha))).1
    refine ⟨s.commit k c'.irqAck, c'.irqAck.chip, (exec_chainAck_some hk).trans hack, hack, rfl, ?_, fun ha => ?_,
      fun ha => ?_⟩
    · rw [State.commit_trace, hquiet, List.map_nil, List.append_nil]
    · obtain ⟨-, hreply, hieo⟩ := Chip.irqAck_a ha
      exact ⟨hieo, by rw [State.commit_answer, hreply, Reply.toAnswer_byte]⟩
    · have hb := requests_of_irqState hint ha
      obtain ⟨-, hreply, hieo⟩ := Chip.irqAck_b ha hb
      exact ⟨hb, hieo, by rw [State.commit_answer, hreply, Reply.toAnswer_byte]⟩
  · obtain ⟨c, hc, hieo⟩ := hserved
    have hk : s.served = some k := servedFrom_some.mpr ⟨Nat.zero_le k, ⟨c, hc, hieo⟩, hfirst⟩
    have hreti : exec (.irqReti k) s = .next (s.commit k c.irqReti) := onChip_of_get hc _
    refine ⟨s.commit k c.irqReti, (exec_chainReti_some hk).trans hreti, hreti, ?_⟩
    rw [State.commit_trace, Chip.irqReti_out hieo, List.map_nil, List.append_nil]
  · exact exec_chainReti_none (servedFrom_none.mpr hnone)

/-! Reset (R380 to R388). -/

/-- Bit 7 of the interrupt control word is cleared (R380). -/
theorem icw_reset (w : Byte) : w &&& 0x7F#8 = 0#1 ++ w.extractLsb' 0 7 := by revert w; decide

/-- TX_EMPTY, and the line bits from the latches (R383). -/
theorem rr0_reset (q : Channel) :
    txEmpty ||| lineBits q =
      0b00#2 ++ BitVec.ofBool (!q.cts) ++ BitVec.ofBool (!q.ri) ++ BitVec.ofBool (!q.dcd) ++ 0b100#3 := by
  unfold lineBits
  cases q.cts <;> cases q.ri <;> cases q.dcd <;> decide

/-- Settles O57: the fields of each port and channel, then its output lines. -/
theorem chipResetSetsFields : Obligations.ChipResetSetsFields := by
  refine ⟨fun s k c hc => ?_, fun s k d hd => ?_⟩
  · simp only [← icw_reset]
    exact onPio_afterPio hc (f := fun c => pioReset (Act.begin c)) rfl Reply.noConfusion
  · simp only [← rr0_reset]
    exact onDart_afterDart_none hd (f := fun d => dartReset (Act.begin d)) rfl rfl

/-- Settles O58: the reset state, evaluated. -/
theorem resetStateIsQuiet : Obligations.ResetStateIsQuiet := by
  refine ⟨by decide, by decide, by decide, ⟨_, rfl, by decide⟩, ⟨_, rfl, by decide⟩⟩

end Sys2Proof.Machine
end

section
/-! What an operation on a PIO moves: its configuration and the invariant stand after every one, the decode states after
all but a control write and a reset, the service flags after all but the acknowledge, the return and the reset (R20,
R26, R151, R332). -/

-- One proof at a time: the check then needs fewer threads, each of which takes part of its memory.
set_option Elab.async false

namespace Sys2Proof.Machine

open Sys2Proof

/-! What may happen to a service flag. -/

/-- What an operation may do to the `IEO` flags: keep them, only take them away, or anything. -/
inductive Service where
  | kept
  | released
  | any

/-- The flag before and after. -/
def Service.allows : Service → Bool → Bool → Prop
  | .kept, b, b' => b' = b
  | .released, b, b' => b' = true → b = true
  | .any, _, _ => True

theorem Service.allows_refl (m : Service) (b : Bool) : m.allows b b := by
  cases m with
  | kept => rfl
  | released => exact id
  | any => trivial

theorem Service.allows_trans {m : Service} {b b' b'' : Bool} (h : m.allows b b') (h' : m.allows b' b'') :
    m.allows b b'' := by
  cases m with
  | kept => exact h'.trans h
  | released => exact fun hb => h (h' hb)
  | any => trivial

theorem Service.allows_of_kept {m : Service} {b b' : Bool} (h : Service.kept.allows b b') : m.allows b b' := by
  obtain rfl : b' = b := h
  exact m.allows_refl b'

/-! A PIO. -/

/-- From `c` to `c'`: the configuration stands, port B does not become Bidirectional, only enabled ports come to
request, and the service flags move as `m` allows. -/
structure PioChip.Moves (m : Service) (c c' : PioChip) : Prop where
  cfg : c'.cfg = c.cfg
  mode : c.b.mode ≠ .bidir → c'.b.mode ≠ .bidir
  request : ∀ p, requestEnabled (c.port p).ie (c.port p).src = true →
    requestEnabled (c'.port p).ie (c'.port p).src = true
  service : ∀ p, m.allows (c.port p).src.ieo (c'.port p).src.ieo

/-- From `c` to `c'`, besides: the decode states stand. -/
structure PioChip.Quiet (m : Service) (c c' : PioChip) : Prop extends c.Moves m c' where
  cws : ∀ p, (c'.port p).cws = (c.port p).cws

/-- The fields of a port that only control words, interrupts and resets write. -/
def Port.control (q : Port) : Mode × Cws × Bool × Source := (q.mode, q.cws, q.ie, q.src)

section
variable {m : Service} {c c' c'' : PioChip} {p : Side} {q : Port}

theorem PioChip.Moves.refl (m : Service) (c : PioChip) : c.Moves m c :=
  ⟨rfl, id, fun _ => id, fun _ => m.allows_refl _⟩

theorem PioChip.Moves.trans (h : c.Moves m c') (h' : c'.Moves m c'') : c.Moves m c'' :=
  ⟨h'.cfg.trans h.cfg, fun hb => h'.mode (h.mode hb), fun p hp => h'.request p (h.request p hp),
    fun p => Service.allows_trans (h.service p) (h'.service p)⟩

/-- One port changes; the arbiter does not run. -/
theorem PioChip.Moves.setPort (hmode : p = .b → (c.port p).mode ≠ .bidir → q.mode ≠ .bidir)
    (hrequest : requestEnabled (c.port p).ie (c.port p).src = true → requestEnabled q.ie q.src = true)
    (hservice : m.allows (c.port p).src.ieo q.src.ieo) : c.Moves m (c.setPort p q) := by
  cases p with
  | a =>
    refine ⟨rfl, id, fun p' => ?_, fun p' => ?_⟩
    · cases p' with
      | a => exact hrequest
      | b => exact id
    · cases p' with
      | a => exact hservice
      | b => exact m.allows_refl _
  | b =>
    refine ⟨rfl, hmode rfl, fun p' => ?_, fun p' => ?_⟩
    · cases p' with
      | a => exact id
      | b => exact hrequest
    · cases p' with
      | a => exact m.allows_refl _
      | b => exact hservice

/-- The arbiter leaves requests of enabled ports only (R322, R332 c), whatever requested before. -/
theorem PioChip.requestEnabled_checkInterrupt (c : PioChip) (p : Side) :
    requestEnabled (c.checkInterrupt.port p).ie (c.checkInterrupt.port p).src = true := by
  cases p <;> exact settle_requestEnabled ..

theorem PioChip.ieo_checkInterrupt (c : PioChip) (p : Side) :
    (c.checkInterrupt.port p).src.ieo = (c.port p).src.ieo := by
  cases p <;> exact Source.settle_ieo ..

/-- One port changes and the arbiter runs. -/
theorem PioChip.Moves.checked (hmode : p = .b → (c.port p).mode ≠ .bidir → q.mode ≠ .bidir)
    (hservice : m.allows (c.port p).src.ieo q.src.ieo) : c.Moves m (c.setPort p q).checkInterrupt := by
  refine ⟨PioChip.setPort_cfg .., fun hb => ?_, fun p' _ => PioChip.requestEnabled_checkInterrupt .., fun p' => ?_⟩
  · cases p with
    | a => exact hb
    | b => exact hmode rfl hb
  · rw [PioChip.ieo_checkInterrupt]
    by_cases hp : p' = p
    · subst hp
      rw [PioChip.port_setPort]
      exact hservice
    · rw [PioChip.port_setPort_of_ne _ _ _ _ hp]
      exact m.allows_refl _

theorem PioChip.Quiet.refl (m : Service) (c : PioChip) : c.Quiet m c := ⟨PioChip.Moves.refl m c, fun _ => rfl⟩

theorem PioChip.Quiet.trans (h : c.Quiet m c') (h' : c'.Quiet m c'') : c.Quiet m c'' :=
  ⟨h.toMoves.trans h'.toMoves, fun p => (h'.cws p).trans (h.cws p)⟩

theorem PioChip.cws_setPort (hcws : q.cws = (c.port p).cws) (p' : Side) :
    ((c.setPort p q).port p').cws = (c.port p').cws := by
  by_cases hp : p' = p
  · subst hp
    rw [PioChip.port_setPort, hcws]
  · rw [PioChip.port_setPort_of_ne _ _ _ _ hp]

/-- Latches, lines, pins and the match flag of one port change. -/
theorem PioChip.Quiet.setPort (h : q.control = (c.port p).control) : c.Quiet m (c.setPort p q) := by
  obtain ⟨hmode, hcws, hie, hsrc⟩ : q.mode = (c.port p).mode ∧ q.cws = (c.port p).cws ∧ q.ie = (c.port p).ie ∧
      q.src = (c.port p).src := by simpa [Port.control] using h
  refine ⟨PioChip.Moves.setPort (fun _ => by rw [hmode]; exact id) (by rw [hie, hsrc]; exact id)
    (by rw [hsrc]; exact m.allows_refl _), PioChip.cws_setPort hcws⟩

theorem PioChip.cws_checkInterrupt (c : PioChip) (p : Side) : (c.checkInterrupt.port p).cws = (c.port p).cws := by
  cases p <;> rfl

/-- The source of one port changes and the arbiter runs. -/
theorem PioChip.Quiet.source {r : Source} (h : m.allows (c.port p).src.ieo r.ieo) :
    c.Quiet m (c.setPort p { c.port p with src := r }).checkInterrupt := by
  refine ⟨PioChip.Moves.checked (fun _ => id) h, fun p' => ?_⟩
  rw [PioChip.cws_checkInterrupt]
  exact PioChip.cws_setPort (q := { c.port p with src := r }) rfl p'

theorem PioChip.Quiet.requested (c : PioChip) (p : Side) : c.Quiet m (c.requested p) :=
  PioChip.Quiet.source (m.allows_refl _)

end

/-! Data accesses, strobes and the poll (R170 to R202). -/

section
variable (m : Service) (p : Side) (v : Byte) (l : Level) (x : Act PioChip)

theorem pioDataWrite_quiet : x.chip.Quiet m (pioDataWrite p v x).chip := by
  unfold pioDataWrite
  split
  · rw [dataWriteOut_chip]
    exact .setPort rfl
  · exact .refl m _
  · rw [dataWriteBidir_chip]
    exact .setPort rfl
  · exact .setPort rfl

theorem pioDataRead_quiet : x.chip.Quiet m (pioDataRead p x).chip := by
  unfold pioDataRead
  split
  · exact .refl m _
  · rw [dataReadIn_chip]
    exact .setPort rfl
  · exact .setPort (p := .b) rfl
  · exact .refl m _

/-- The end of a strobe pulse: the request, and ready drops. -/
theorem pulseEnd_quiet : x.chip.Quiet m ((x.trigger p).ready p l).chip :=
  (PioChip.Quiet.requested _ p).trans (.setPort rfl)

theorem strobeOut_quiet : x.chip.Quiet m (strobeOut p l x).chip := by
  unfold strobeOut
  split
  · exact pulseEnd_quiet ..
  · exact .refl m _

theorem strobeIn_quiet : x.chip.Quiet m (strobeIn p l x).chip := by
  have hlatch : x.chip.Quiet m (if l then x else x.onPort p fun q => { q with inLatch := portRead x p }).chip := by
    split
    · exact .refl m _
    · exact .setPort rfl
  unfold strobeIn
  dsimp only
  split
  · exact hlatch.trans (pulseEnd_quiet ..)
  · exact hlatch

theorem strobeBidirA_quiet : x.chip.Quiet m (strobeBidirA l x).chip := by
  unfold strobeBidirA
  split <;> exact .refl m _

theorem strobeBWhileABidir_quiet : x.chip.Quiet m (strobeBWhileABidir l x).chip := by
  have hlatch : x.chip.Quiet m (if l then x else x.onPort .a fun q => { q with inLatch := portRead x .a }).chip := by
    split
    · exact .refl m _
    · exact .setPort (p := .a) rfl
  unfold strobeBWhileABidir
  dsimp only
  split
  · exact hlatch.trans (pulseEnd_quiet ..)
  · exact hlatch

theorem strobeByMode_quiet : x.chip.Quiet m (strobeByMode p l x).chip := by
  unfold strobeByMode
  split
  · exact strobeOut_quiet ..
  · exact strobeIn_quiet ..
  · cases p with
    | a => exact strobeBidirA_quiet ..
    | b => exact .refl m _
  · exact .refl m _

theorem pioStrobe_quiet : x.chip.Quiet m (pioStrobe p l x).chip := by
  have haction : x.chip.Quiet m (strobeAction p l x).chip := by
    unfold strobeAction
    split
    · exact strobeBWhileABidir_quiet ..
    · exact strobeByMode_quiet ..
  exact haction.trans (.setPort rfl)

theorem polledPort_quiet (c : PioChip) : c.Quiet m (c.polledPort p) := by
  unfold PioChip.polledPort
  split
  · dsimp only
    split
    · exact PioChip.Quiet.trans (c' := c.withPort p _) (.setPort rfl) (.requested ..)
    · exact .setPort rfl
  · exact .refl m _

theorem pollPort_quiet : x.chip.Quiet m (pollPort p x).chip := by
  rw [pollPort_chip]
  exact polledPort_quiet ..

end

/-! The interrupt contract (R325, R327). -/

theorem PioChip.irqAck_quiet (c : PioChip) : c.Quiet .any c.irqAck.chip := by
  rw [PioChip.irqAck_eq]
  split
  · exact .source trivial
  · split
    · exact .source trivial
    · exact .refl .any c

theorem PioChip.irqReti_quiet (x : Act PioChip) : x.chip.Quiet .released (PioChip.irqReti x).chip := by
  have hreleased (r : Source) : Service.released.allows r.ieo r.released.ieo := Bool.noConfusion
  rw [PioChip.irqReti_eq]
  split
  · exact .source (hreleased _)
  · split
    · exact .source (hreleased _)
    · exact .refl .released _

/-! Control words (R150 to R161) and reset (R380). -/

section
variable (m : Service) (p : Side) (v : Byte) (x : Act PioChip)

theorem modeWord_moves : x.chip.Moves m (modeWord p v x).chip := by
  unfold modeWord
  split
  · rw [modeOutput_chip]
    exact .setPort (fun _ _ => Mode.noConfusion) id (m.allows_refl _)
  · exact .setPort (fun _ _ => Mode.noConfusion) id (m.allows_refl _)
  · cases p with
    | a => exact .setPort (p := .a) (fun h => nomatch h) id (m.allows_refl _)
    | b => exact .refl m _
  · exact .setPort (fun _ _ => Mode.noConfusion) id (m.allows_refl _)

theorem intControlWord_moves : x.chip.Moves m (intControlWord p v x).chip := by
  rw [intControlWord_chip]
  split
  · exact .setPort (fun _ => id) (fun _ => rfl) (m.allows_refl _)
  · exact .checked (fun _ => id) (m.allows_refl _)

theorem pioControlWrite_moves : x.chip.Moves m (pioControlWrite p v x).chip := by
  unfold pioControlWrite
  split
  · exact .setPort (fun _ => id) id (m.allows_refl _)
  · exact .checked (fun _ => id) (m.allows_refl _)
  · split_ifs
    · exact .setPort (fun _ => id) id (m.allows_refl _)
    · exact modeWord_moves ..
    · exact intControlWord_moves ..
    · exact .refl m _

end

/-- One port reset: Input mode, decode state NORMAL, its source idle. -/
theorem resetPort_moves (p : Side) (x : Act PioChip) : x.chip.Moves .released (resetPort p x).chip := by
  have hport : x.chip.Moves .released (x.onPort p Port.resetFields).chip :=
    .setPort (fun _ _ => Mode.noConfusion) (fun _ => rfl) Bool.noConfusion
  exact hport.trans (.setPort (fun _ => id) id (Service.allows_refl _ _))

theorem pioReset_moves (x : Act PioChip) : x.chip.Moves .released (pioReset x).chip :=
  (resetPort_moves .a x).trans (resetPort_moves .b _)

end Sys2Proof.Machine
end

section
/-! What an operation on a DART moves: its configuration and the invariant of each channel stand after every one, the
service flags after all but the acknowledge, the return, Channel-reset of channel A and the reset (R20, R240 to R306,
R332). -/

-- One proof at a time: the check then needs fewer threads, each of which takes part of its memory.
set_option Elab.async false

namespace Sys2Proof.Machine

open Sys2Proof

/-! The invariant of a channel, field by field. -/

/-- Everything `Channel.wellBehaved` says of a channel but that its requests are enabled. -/
structure Channel.Sound (q : Channel) : Prop where
  count : q.fifo.n ≤ 3
  avail : q.rr0.getLsbD 0 = decide (0 < q.fifo.n)
  rxDiv : q.rxDiv < 64
  txDiv : q.txDiv < 64
  rxBits : q.rxBits ≤ 8
  txBits : q.txBits ≤ 8
  rxDue : q.rxState = .data → q.rxBits < 8
  txDue : q.txState = .data → q.txBits < 8
  allSent : q.rr1.getLsbD 0 = true → q.rr0.getLsbD 2 = true ∧ q.txState = .start
  rr0 : q.rr0 &&& 0xC2#8 = 0#8
  rr1 : q.rr1 &&& 0x8E#8 = 0#8
  rxErr : q.rxErr &&& 0x8F#8 = 0#8
  lines : q.rr0Latch = false → q.rr0 &&& 0x38#8 = lineBits q

theorem Channel.wellBehaved_iff (q : Channel) :
    q.wellBehaved = true ↔ q.Sound ∧ requestEnabled q.enabled q.src = true := by
  have hmask (w m : Byte) : hasBits w m = false ↔ w &&& m = 0#8 := by simp [hasBits]
  have hdue (f : Frame) (n : Nat) : (f != .data || decide (n < 8)) = true ↔ (f = .data → n < 8) := by
    cases f <;> simp
  simp only [Channel.wellBehaved, Channel.fifoOk, Channel.countersOk, Channel.transmitOk, Channel.reservedOk,
    Channel.linesOk, Bool.and_eq_true, hdue, rxAvail, Machine.allSent, txEmpty, hasBits_bit0, hasBits_bit2,
    Bool.not_eq_true', hmask, decide_eq_true_eq, beq_iff_eq, Bool.or_eq_true]
  constructor
  · rintro ⟨⟨⟨⟨⟨⟨hcount, havail⟩, ⟨⟨⟨⟨hrxDiv, htxDiv⟩, hrxBits⟩, htxBits⟩, hrxDue⟩, htxDue⟩, hall⟩, ⟨hrr0, hrr1⟩, herr⟩,
      hlines⟩, hrequest⟩
    exact ⟨⟨hcount, havail, hrxDiv, htxDiv, hrxBits, htxBits, hrxDue, htxDue,
      fun h => hall.resolve_left (by simp [h]), hrr0, hrr1, herr, fun h => hlines.resolve_left (by simp [h])⟩, hrequest⟩
  · rintro ⟨h, hrequest⟩
    have hall : q.rr1.getLsbD 0 = false ∨ q.rr0.getLsbD 2 = true ∧ q.txState = .start := by
      cases hb : q.rr1.getLsbD 0 with
      | false => exact .inl rfl
      | true => exact .inr (h.allSent hb)
    have hlines : q.rr0Latch = true ∨ q.rr0 &&& 0x38#8 = lineBits q := by
      cases hb : q.rr0Latch with
      | true => exact .inl rfl
      | false => exact .inr (h.lines hb)
    exact ⟨⟨⟨⟨⟨⟨h.count, h.avail⟩, ⟨⟨⟨⟨h.rxDiv, h.txDiv⟩, h.rxBits⟩, h.txBits⟩, h.rxDue⟩, h.txDue⟩, hall⟩,
      ⟨h.rr0, h.rr1⟩, h.rxErr⟩, hlines⟩, hrequest⟩

/-! Bits that a change of a register leaves alone. -/

section
variable {w m k : Byte} {n : Nat}

theorem or_mask (h : m &&& k = 0#8) : (w ||| m) &&& k = w &&& k := by
  rw [BitVec.and_or_distrib_right, h, BitVec.or_zero]

theorem and_mask (h : m &&& k = k) : (w &&& m) &&& k = w &&& k := by rw [BitVec.and_assoc, h]

theorem or_bit (h : m.getLsbD n = false) : (w ||| m).getLsbD n = w.getLsbD n := by
  rw [BitVec.getLsbD_or, h, Bool.or_false]

theorem and_bit (h : m.getLsbD n = true) : (w &&& m).getLsbD n = w.getLsbD n := by
  rw [BitVec.getLsbD_and, h, Bool.and_true]

end

/-- The line bits as a function of the three levels. -/
def lineByte (cts dcd ri : Level) : Byte :=
  putBits (!dcd) (putBits (!ri) (putBits (!cts) 0x00#8 ctsBit) riBit) dcdBit

theorem lineBits_eq_lineByte (q : Channel) : lineBits q = lineByte q.cts q.dcd q.ri := rfl

/-- The line bits stand in bits 3 to 5. -/
theorem lineBits_mask (q : Channel) : lineBits q &&& 0x38#8 = lineBits q ∧ lineBits q &&& 0xC2#8 = 0#8 ∧
    (lineBits q).getLsbD 0 = false ∧ (lineBits q).getLsbD 2 = false := by
  rw [lineBits_eq_lineByte]
  generalize q.cts = cts, q.dcd = dcd, q.ri = ri
  revert cts dcd ri
  decide

/-- A line bit follows its line. -/
theorem lineBits_cts (q : Channel) (l : Level) :
    lineBits { q with cts := l } = if l then lineBits q &&& ~~~0x20#8 else lineBits q ||| 0x20#8 := by
  simp only [lineBits_eq_lineByte]
  generalize q.cts = cts, q.dcd = dcd, q.ri = ri
  revert cts dcd ri l
  decide

theorem lineBits_dcd (q : Channel) (l : Level) :
    lineBits { q with dcd := l } = if l then lineBits q &&& ~~~0x08#8 else lineBits q ||| 0x08#8 := by
  simp only [lineBits_eq_lineByte]
  generalize q.cts = cts, q.dcd = dcd, q.ri = ri
  revert cts dcd ri l
  decide

theorem lineBits_ri (q : Channel) (l : Level) :
    lineBits { q with ri := l } = if l then lineBits q &&& ~~~0x10#8 else lineBits q ||| 0x10#8 := by
  simp only [lineBits_eq_lineByte]
  generalize q.cts = cts, q.dcd = dcd, q.ri = ri
  revert cts dcd ri l
  decide

/-! The data register and the FIFO. -/

section
variable {q : Channel} (h : q.Sound)
include h

theorem Channel.Sound.stored (hn : q.fifo.n < 3) (v err : Byte) : (Channel.stored v err q).Sound :=
  { h with
    count := hn
    avail := by simp [Channel.stored]
    allSent := fun hb => ⟨(or_bit rfl).trans (h.allSent hb).1, (h.allSent hb).2⟩
    rr0 := (or_mask rfl).trans h.rr0
    lines := fun hl => (or_mask rfl).trans (h.lines hl) }

theorem Channel.Sound.lost (hn : q.fifo.n = 3) : (Channel.lost q).Sound :=
  { h with
    avail := by simp [Channel.lost, hn]
    allSent := fun hb =>
      have hsent := h.allSent ((or_bit rfl).symm.trans hb)
      ⟨(or_bit rfl).trans hsent.1, hsent.2⟩
    rr0 := (or_mask rfl).trans h.rr0
    rr1 := (or_mask rfl).trans h.rr1
    lines := fun hl => (or_mask rfl).trans (h.lines hl) }

theorem Channel.Sound.popped (hn : q.fifo.n ≠ 0) : q.popped.Sound := by
  have hrr0 {k : Byte} (hk : 0xFE#8 &&& k = k) : q.popped.rr0 &&& k = q.rr0 &&& k := by
    simp only [Channel.popped]
    split
    · exact and_mask hk
    · rfl
  have hrr1 : q.popped.rr1.getLsbD 0 = q.rr1.getLsbD 0 := by simp [Channel.popped]
  have hempty : q.popped.rr0.getLsbD 2 = q.rr0.getLsbD 2 := by
    simp only [Channel.popped]
    split
    · exact and_bit rfl
    · rfl
  refine { h with
    count := Nat.le_trans (Nat.sub_le ..) h.count
    avail := ?_
    allSent := fun hb => ?_
    rr0 := (hrr0 rfl).trans h.rr0
    rr1 := ?_
    lines := fun hl => (hrr0 rfl).trans (h.lines hl) }
  · by_cases h1 : q.fifo.n = 1
    · simp [Channel.popped, h1]
    · have hleft : 0 < q.fifo.n - 1 := by omega
      have hpos : 0 < q.fifo.n := by omega
      simp only [Channel.popped, if_neg h1, hleft, h.avail, hpos]
  · obtain ⟨hsent, hstart⟩ := h.allSent (hrr1.symm.trans hb)
    exact ⟨hempty.trans hsent, hstart⟩
  · rw [Channel.popped, or_mask (by rw [BitVec.and_assoc]; exact BitVec.and_zero), and_mask rfl, h.rr1]

/-- A byte to send is latched (R240). -/
theorem Channel.Sound.latched (v : Byte) :
    Channel.Sound { q with txData := v, rr0 := clearBits q.rr0 txEmpty, rr1 := clearBits q.rr1 Machine.allSent } :=
  { h with
    avail := (and_bit rfl).trans h.avail
    allSent := fun hb => by simp [clearBits, Machine.allSent] at hb
    rr0 := (and_mask rfl).trans h.rr0
    rr1 := (and_mask rfl).trans h.rr1
    lines := fun hl => (and_mask rfl).trans (h.lines hl) }

/-! Commands. -/

/-- Error-reset (R218). -/
theorem Channel.Sound.errorsCleared : Channel.Sound { q with rr1 := q.rr1 &&& 0x8F#8 } :=
  { h with
    allSent := fun hb => h.allSent ((and_bit rfl).symm.trans hb)
    rr1 := (and_mask rfl).trans h.rr1 }

/-- Reset-external-status (R214). -/
theorem Channel.Sound.statusReset :
    Channel.Sound { q with
      rr0 := clearBits q.rr0 (dcdBit ||| riBit ||| ctsBit ||| breakBit) ||| lineBits q, rr0Latch := false } := by
  obtain ⟨hline, hother, hbit0, hbit2⟩ := lineBits_mask q
  exact { h with
    avail := ((or_bit hbit0).trans (and_bit rfl)).trans h.avail
    allSent := fun hb =>
      have hsent := h.allSent hb
      ⟨((or_bit hbit2).trans (and_bit rfl)).trans hsent.1, hsent.2⟩
    rr0 := (or_mask hother).trans (by
      rw [clearBits, BitVec.and_assoc, BitVec.and_comm (~~~_), ← BitVec.and_assoc, h.rr0, BitVec.zero_and])
    lines := fun _ => by
      rw [BitVec.and_or_distrib_right, hline, clearBits, BitVec.and_assoc]
      exact (congrArg (· ||| lineBits q) BitVec.and_zero).trans BitVec.zero_or }

/-- Channel-reset (R215). -/
theorem Channel.Sound.reset : q.reset.Sound :=
  { h with rxDue := Frame.noConfusion, txDue := Frame.noConfusion, allSent := fun hb => ⟨(h.allSent hb).1, rfl⟩ }

/-! Modem lines (R260). -/

/-- While RR0 is latched it does not follow; what the auto-enables write plays no part. -/
theorem Channel.Sound.lineHeld (hl : q.rr0Latch = true) (cts dcd ri : Level) (w3 w5 : Byte) :
    Channel.Sound { q with cts := cts, dcd := dcd, ri := ri, wr3 := w3, wr5 := w5 } :=
  { h with lines := fun hb => Bool.noConfusion (hl.symm.trans hb) }

theorem Channel.Sound.statusLatched : Channel.Sound { q with rr0Latch := true } := { h with lines := Bool.noConfusion }

/-- Else its bit for the line follows. -/
theorem Channel.Sound.lineFollowed {bit : Byte} (hbit : bit &&& 0x38#8 = bit) (hl : q.rr0Latch = false) {l : Level}
    {cts dcd ri : Level} (w3 w5 : Byte)
    (hlines : lineBits { q with cts := cts, dcd := dcd, ri := ri } =
      if l then lineBits q &&& ~~~bit else lineBits q ||| bit) :
    Channel.Sound { q with
      cts := cts, dcd := dcd, ri := ri, wr3 := w3, wr5 := w5,
      rr0 := if l then q.rr0 &&& ~~~bit else q.rr0 ||| bit } := by
  obtain ⟨hbit0, hbit2, hother, hothers⟩ : bit.getLsbD 0 = false ∧ bit.getLsbD 2 = false ∧ bit &&& 0xC2#8 = 0#8 ∧
      ~~~bit &&& 0xC2#8 = 0xC2#8 := by
    have hall : ∀ b : Byte, b &&& 0x38#8 = b →
        b.getLsbD 0 = false ∧ b.getLsbD 2 = false ∧ b &&& 0xC2#8 = 0#8 ∧ ~~~b &&& 0xC2#8 = 0xC2#8 := by decide
    exact hall bit hbit
  have hkeep {n : Nat} (hn : n < 8) (hb : bit.getLsbD n = false) :
      (if l then q.rr0 &&& ~~~bit else q.rr0 ||| bit).getLsbD n = q.rr0.getLsbD n := by
    split
    · exact and_bit (by rw [BitVec.getLsbD_not, hb, decide_eq_true hn]; rfl)
    · exact or_bit hb
  refine { h with
    avail := (hkeep (by decide) hbit0).trans h.avail
    allSent := fun hb =>
      have hsent := h.allSent hb
      ⟨(hkeep (by decide) hbit2).trans hsent.1, hsent.2⟩
    rr0 := ?_
    lines := fun _ => Eq.trans ?_ hlines.symm }
  · dsimp only
    split
    · exact (and_mask hothers).trans h.rr0
    · exact (or_mask hother).trans h.rr0
  · dsimp only
    split
    · rw [BitVec.and_assoc, BitVec.and_comm (~~~bit), ← BitVec.and_assoc, h.lines hl]
    · rw [BitVec.and_or_distrib_right, h.lines hl, hbit]

/-! Receive bit-times (R290 to R296). -/

theorem Channel.Sound.rxStarted :
    Channel.Sound { q with rxShift := 0x00#8, rxBits := 0, rxPar := false, rxErr := 0x00#8, rxState := .data } :=
  { h with rxBits := Nat.zero_le 8, rxDue := fun _ => Nat.zero_lt_succ 7, rxErr := BitVec.zero_and }

theorem Channel.Sound.shiftIn (hst : q.rxState = .data) (b : Level) : (q.shiftIn b).Sound := by
  have hdue := h.rxDue hst
  rw [shiftIn_eq hst]
  refine { h with rxBits := hdue, rxDue := fun hd => ?_ }
  change (if q.rxBits + 1 < q.rxWl then Frame.data else q.afterData) = .data at hd
  by_cases hn : q.rxBits + 1 < q.rxWl
  · exact Nat.lt_of_lt_of_le hn q.rxWl_bounds.2
  · rw [if_neg hn, Channel.afterData] at hd
    split at hd <;> cases hd

/-- The end of an element other than a data bit. -/
theorem Channel.Sound.rxIn {st : Frame} (hst : st ≠ .data) : Channel.Sound { q with rxState := st } :=
  { h with rxDue := fun hd => absurd hd hst }

theorem Channel.Sound.parityFlag : Channel.Sound { q with rxErr := q.rxErr ||| 0x10#8 } :=
  { h with rxErr := (or_mask rfl).trans h.rxErr }

theorem Channel.Sound.framingFlag :
    Channel.Sound { q with rxErr := if q.rxd then q.rxErr else q.rxErr ||| 0x40#8 } := by
  refine { h with rxErr := ?_ }
  dsimp only
  split
  · exact h.rxErr
  · exact (or_mask rfl).trans h.rxErr

/-! Transmit bit-times (R300 to R306). -/

theorem Channel.Sound.txTaken (hfull : q.rr0.getLsbD 2 = false) :
    Channel.Sound { q with
      txd := false, txShift := q.txData, txBits := 0, txPar := false, rr0 := q.rr0 ||| 0x04#8, txState := .data } :=
  { h with
    avail := (or_bit rfl).trans h.avail
    txBits := Nat.zero_le 8
    txDue := fun _ => Nat.zero_lt_succ 7
    allSent := fun hb => Bool.noConfusion (hfull.symm.trans (h.allSent hb).1)
    rr0 := (or_mask rfl).trans h.rr0
    lines := fun hl => (or_mask rfl).trans (h.lines hl) }

/-- While a character is in flight ALL_SENT is 0. -/
theorem Channel.Sound.notAllSent (hst : q.txState ≠ .start) : q.rr1.getLsbD 0 = false :=
  Bool.eq_false_iff.mpr fun hb => hst (h.allSent hb).2

theorem Channel.Sound.shiftOut (hst : q.txState = .data) : q.shiftOut.Sound := by
  have hdue := h.txDue hst
  have hflight := h.notAllSent (by rw [hst]; exact Frame.noConfusion)
  rw [shiftOut_eq hst]
  refine { h with
    txBits := hdue, txDue := fun hd => ?_, allSent := fun hb => Bool.noConfusion (hflight.symm.trans hb) }
  change (if q.txBits + 1 < q.txWl then Frame.data else q.afterData) = .data at hd
  by_cases hn : q.txBits + 1 < q.txWl
  · exact Nat.lt_of_lt_of_le hn q.txWl_bounds.2
  · rw [if_neg hn, Channel.afterData] at hd
    split at hd <;> cases hd

/-- The next element of a character in flight. -/
theorem Channel.Sound.txIn (hflight : q.txState ≠ .start) {st : Frame} (hst : st ≠ .data) (l : Level) :
    Channel.Sound { q with txd := l, txState := st } :=
  { h with
    txDue := fun hd => absurd hd hst
    allSent := fun hb => Bool.noConfusion ((h.notAllSent hflight).symm.trans hb) }

/-- The transmitter waits again; a byte waits too (R306). -/
theorem Channel.Sound.txBack : Channel.Sound { q with txState := .start } :=
  { h with txDue := Frame.noConfusion, allSent := fun hb => ⟨(h.allSent hb).1, rfl⟩ }

/-- The transmitter waits again and no byte waits (R306). -/
theorem Channel.Sound.txAllSent (hempty : q.rr0.getLsbD 2 = true) :
    Channel.Sound { q with rr1 := q.rr1 ||| 0x01#8, txState := .start } :=
  { h with
    txDue := Frame.noConfusion
    allSent := fun _ => ⟨hempty, rfl⟩
    rr1 := (or_mask rfl).trans h.rr1 }

/-! Dividers and reset. -/

theorem Channel.Sound.rxCounted {n : Nat} (hn : n < 64) : Channel.Sound { q with rxDiv := n } := { h with rxDiv := hn }

theorem Channel.Sound.txCounted {n : Nat} (hn : n < 64) : Channel.Sound { q with txDiv := n } := { h with txDiv := hn }

end

/-- A channel after reset is sound whatever it was (R383). -/
theorem Channel.sound_resetFields (q : Channel) : q.resetFields.Sound := by
  obtain ⟨hline, hother, hbit0, hbit2⟩ := lineBits_mask q
  have hrr0 : q.resetFields.rr0 = lineBits q ||| txEmpty := BitVec.or_comm ..
  constructor
  case avail => rw [hrr0, or_bit rfl, hbit0]; rfl
  case allSent => exact fun _ => ⟨by rw [hrr0]; simp [txEmpty], rfl⟩
  case rr0 => rw [hrr0, or_mask rfl, hother]
  case lines => exact fun _ => by rw [hrr0, or_mask rfl, hline]; rfl
  case rxDue => exact Frame.noConfusion
  case txDue => exact Frame.noConfusion
  case rr1 => exact (by decide : 0x01#8 &&& 0x8E#8 = 0#8)
  case rxErr => exact BitVec.zero_and
  case rxDiv => exact Nat.zero_lt_succ 63
  case txDiv => exact Nat.zero_lt_succ 63
  all_goals exact Nat.zero_le _

/-! A channel, then a DART. -/

/-- From `q` to `q'`: a sound channel stays sound, a request is an enabled one if it was, and the service flag moves as
`m` allows. -/
structure Channel.Moves (m : Service) (q q' : Channel) : Prop where
  sound : q.Sound → q'.Sound
  request : requestEnabled q.enabled q.src = true → requestEnabled q'.enabled q'.src = true
  service : m.allows q.src.ieo q'.src.ieo

/-- From `d` to `d'`: the configuration stands, and each channel moves as above. -/
structure DartChip.Moves (m : Service) (d d' : DartChip) : Prop where
  cfg : d'.cfg = d.cfg
  ch : ∀ c, (d.ch c).Moves m (d'.ch c)

/-- The fields of a channel that decide its requests. -/
def Channel.control (q : Channel) : Byte × Source := (q.wr1, q.src)

section
variable {m : Service} {d d' d'' : DartChip} {c : Side} {q q' q'' : Channel}

theorem Channel.Moves.refl (m : Service) (q : Channel) : q.Moves m q := ⟨id, id, m.allows_refl _⟩

theorem Channel.Moves.trans (h : q.Moves m q') (h' : q'.Moves m q'') : q.Moves m q'' :=
  ⟨fun hq => h'.sound (h.sound hq), fun hq => h'.request (h.request hq), Service.allows_trans h.service h'.service⟩

/-- Neither the source nor the interrupt enables change. -/
theorem Channel.Moves.data (hcontrol : q'.control = q.control) (hsound : q.Sound → q'.Sound) : q.Moves m q' := by
  obtain ⟨hwr1, hsrc⟩ : q'.wr1 = q.wr1 ∧ q'.src = q.src := by simpa [Channel.control] using hcontrol
  have henabled : q'.enabled = q.enabled := by rw [enabled_eq, hwr1, enabled_eq]
  exact ⟨hsound, by rw [henabled, hsrc]; exact id, by rw [hsrc]; exact m.allows_refl _⟩

theorem DartChip.Moves.refl (m : Service) (d : DartChip) : d.Moves m d := ⟨rfl, fun _ => .refl m _⟩

theorem DartChip.Moves.trans (h : d.Moves m d') (h' : d'.Moves m d'') : d.Moves m d'' :=
  ⟨h'.cfg.trans h.cfg, fun c => (h.ch c).trans (h'.ch c)⟩

/-- A relation that holds of the changed channel, and of a channel that stands, holds of every channel. -/
theorem DartChip.ch_setCh_rel {R : Channel → Channel → Prop} (hrefl : ∀ q, R q q) (h : R (d.ch c) q) (c' : Side) :
    R (d.ch c') ((d.setCh c q).ch c') := by
  by_cases hc : c' = c
  · subst hc
    rwa [DartChip.ch_setCh]
  · rw [DartChip.ch_setCh_of_ne _ _ _ _ hc]
    exact hrefl _

/-- One channel changes; the arbiter does not run. -/
theorem DartChip.Moves.setCh (h : (d.ch c).Moves m q) : d.Moves m (d.setCh c q) :=
  ⟨DartChip.setCh_cfg .., DartChip.ch_setCh_rel (.refl m) h⟩

/-- One channel changes, but neither its source nor its interrupt enables. -/
theorem DartChip.Moves.data (hcontrol : q.control = (d.ch c).control) (hsound : (d.ch c).Sound → q.Sound) :
    d.Moves m (d.setCh c q) := .setCh (.data hcontrol hsound)

/-- The arbiter writes sources only, and leaves requests of enabled channels only (R322, R332 c). -/
theorem DartChip.ch_checkInterrupt (d : DartChip) (c : Side) :
    ∃ r : Source, d.checkInterrupt.ch c = { d.ch c with src := r } ∧ r.ieo = (d.ch c).src.ieo ∧
      requestEnabled (d.ch c).enabled r = true := by
  cases c <;> exact ⟨_, rfl, Source.settle_ieo .., settle_requestEnabled ..⟩

/-- One channel changes and the arbiter runs. -/
theorem DartChip.Moves.checked (hsound : (d.ch c).Sound → q.Sound)
    (hservice : m.allows (d.ch c).src.ieo q.src.ieo) : d.Moves m (d.setCh c q).checkInterrupt := by
  refine ⟨DartChip.setCh_cfg .., fun c' => ?_⟩
  obtain ⟨hsound', hservice'⟩ := DartChip.ch_setCh_rel
    (R := fun q q' => (q.Sound → q'.Sound) ∧ m.allows q.src.ieo q'.src.ieo) (fun _ => ⟨id, m.allows_refl _⟩)
    ⟨hsound, hservice⟩ c'
  obtain ⟨r, hr, hieo, hrequest⟩ := (d.setCh c q).ch_checkInterrupt c'
  rw [hr]
  exact ⟨fun h => { hsound' h with }, fun _ => hrequest, by rw [hieo]; exact hservice'⟩

theorem DartChip.Moves.requested (d : DartChip) (c : Side) (k : BitVec 2) : d.Moves m (d.requested c k) :=
  .checked (fun h => { h with }) (m.allows_refl _)

end

/-! The data register and arrivals (R240 to R249). -/

section
variable (m : Service) (c : Side) (v err : Byte) (l : Level) (x : Act DartChip)

theorem arrival_moves (d : DartChip) (k : BitVec 2) : d.Moves m (d.arrival c k) := by
  rw [arrival_eq]
  split
  · exact DartChip.Moves.trans (d' := d.withCh c Channel.reported) (.data rfl fun h => { h with }) (.requested ..)
  · exact .refl m d

theorem received_moves (d : DartChip) : d.Moves m (d.received c v err) := by
  unfold DartChip.received
  split
  · rename_i hn
    exact DartChip.Moves.trans (d' := d.withCh c Channel.lost) (.data rfl fun h => h.lost hn) (arrival_moves ..)
  · rename_i hn
    exact DartChip.Moves.trans (d' := d.withCh c (Channel.stored v err))
      (.data rfl fun h => h.stored (Nat.lt_of_le_of_ne h.count hn) v err) (arrival_moves ..)

theorem rxPush_moves : x.chip.Moves m (rxPush c v err x).chip := by
  rw [rxPush_eq]
  exact received_moves ..

theorem dartDataWrite_moves : x.chip.Moves m (dartDataWrite c v x).chip := .data rfl fun h => h.latched v

theorem dartDataRead_moves : x.chip.Moves m (dartDataRead c x).chip := by
  by_cases hn : (x.chip.ch c).fifo.n = 0
  · rw [dartDataRead_empty hn]
    exact .refl m _
  · rw [dartDataRead_pops hn]
    exact .data rfl fun h => h.popped hn

/-! Control accesses (R211 to R230). -/

theorem irqReti_moves : x.chip.Moves .released (DartChip.irqReti x).chip := by
  have hreleased (r : Source) : Service.released.allows r.ieo r.released.ieo := Bool.noConfusion
  rw [DartChip.irqReti_eq]
  split
  · exact .checked (fun h => { h with }) (hreleased _)
  · split
    · exact .checked (fun h => { h with }) (hreleased _)
    · exact .refl .released _

theorem storeWr0_moves : x.chip.Moves m (storeWr0 c v x).chip := .data rfl fun h => { h with }

theorem silenced_moves (d : DartChip) : d.Moves .released d.silenced := by
  have hidle (q : Channel) : q.Moves .released { q with src := Source.idle } :=
    ⟨fun h => { h with }, fun _ => rfl, Bool.noConfusion⟩
  exact DartChip.Moves.trans (.setCh (c := .a) (hidle _)) (.setCh (c := .b) (hidle _))

/-- The WR0 commands that may take a source out of service: Return-from-interrupt, and Channel-reset of channel A. -/
def commandReleases (n : BitVec 3) (c : Side) : Bool := n == 7#3 || (n == 3#3 && c == .a)

/-- What a WR0 command may do to the service flags. -/
def commandService (n : BitVec 3) (c : Side) : Service := if commandReleases n c then .released else .kept

theorem wr0Command_moves (n : BitVec 3) : x.chip.Moves (commandService n c) (wr0Command n c x).chip := by
  have hreset (m : Service) : x.chip.Moves m (x.chip.withCh c Channel.reset) := .data rfl fun h => h.reset
  unfold wr0Command
  split
  · exact .data rfl fun h => h.statusReset
  · rw [channelReset_chip]
    cases c with
    | a => exact (hreset .released).trans (silenced_moves _)
    | b => exact hreset .kept
  · exact .data rfl fun h => { h with }
  · exact .data rfl fun h => h.errorsCleared
  · exact irqReti_moves x
  · exact .refl _ _

theorem writeRegister_moves (n : BitVec 3) : x.chip.Moves m (writeRegister n c v x).chip := by
  unfold writeRegister
  split
  · exact .checked (fun h => { h with }) (m.allows_refl _)
  · exact .data rfl fun h => { h with }
  · exact .data rfl fun h => { h with }
  · exact .data rfl fun h => { h with }
  · rw [writeWr5_chip]
    exact .data rfl fun h => { h with }
  · exact .refl m _

/-- What a byte written to the control register of channel `c` may do to the service flags. -/
def controlService (c : Side) (v : Byte) (d : DartChip) : Service :=
  if (d.ch c).ptr = 0#3 then commandService (wr0Cmd v) c else .kept

theorem dartControlWrite_moves : x.chip.Moves (controlService c v x.chip) (dartControlWrite c v x).chip := by
  unfold controlService
  split
  · rename_i hp
    rw [dartControlWrite_wr0 hp, writeWr0_eq]
    exact (storeWr0_moves ..).trans (wr0Command_moves ..)
  · rename_i hp
    rw [dartControlWrite_register rfl hp]
    exact (writeRegister_moves ..).trans (.data rfl fun h => { h with })

theorem readRegister_chip (n : BitVec 3) : (readRegister n c x).chip = x.chip := by
  unfold readRegister
  split
  · rfl
  · rfl
  · cases c <;> rfl
  · rfl

theorem dartControlRead_moves (resets : Bool) : x.chip.Moves m (dartControlRead resets c x).chip := by
  rw [dartControlRead_eq, readRegister_chip, readPointer_chip, DartChip.afterControlRead]
  refine .setCh ?_
  dsimp only
  split
  · exact .data rfl fun h => { h with }
  · exact .refl m _

/-! Modem lines (R260 to R263). -/

/-- A line has changed: while RR0 is latched only its latch follows, else RR0's bit too, and a request may latch RR0. -/
theorem lineChanged_moves {d : DartChip} {bit : Byte} {q : Channel} (hcontrol : q.control = (d.ch c).control)
    (hlatch : q.rr0Latch = (d.ch c).rr0Latch) (hheld : (d.ch c).rr0Latch = true → (d.ch c).Sound → q.Sound)
    (hfollowed : (d.ch c).rr0Latch = false → (d.ch c).Sound →
      Channel.Sound { q with rr0 := if l then q.rr0 &&& ~~~bit else q.rr0 ||| bit }) :
    d.Moves m ((d.setCh c q).lineChanged c bit l) := by
  have hlatched (e : DartChip) : e.Moves m (e.withCh c fun q => { q with rr0Latch := true }) :=
    .data rfl fun h => h.statusLatched
  have hset : (d.setCh c q).withCh c (fun q => { q with rr0 := if l then q.rr0 &&& ~~~bit else q.rr0 ||| bit }) =
      d.setCh c { q with rr0 := if l then q.rr0 &&& ~~~bit else q.rr0 ||| bit } := by
    rw [DartChip.withCh_eq, DartChip.ch_setCh, DartChip.setCh_setCh]
  unfold DartChip.lineChanged
  rw [hset]
  cases hl : (d.ch c).rr0Latch with
  | true =>
    rw [if_pos (by rw [DartChip.ch_setCh, hlatch, hl])]
    exact .data hcontrol (hheld hl)
  | false =>
    have hbit : d.Moves m (d.setCh c { q with rr0 := if l then q.rr0 &&& ~~~bit else q.rr0 ||| bit }) :=
      .data hcontrol (hfollowed hl)
    rw [if_neg (by rw [DartChip.ch_setCh, hlatch, hl]; exact Bool.false_ne_true)]
    dsimp only
    split
    · exact (hbit.trans (.requested ..)).trans (hlatched _)
    · exact hbit

theorem ctsW_moves : x.chip.Moves m (ctsW c l x).chip := by
  rw [ctsW_eq]
  dsimp only
  split
  · exact .refl m _
  · exact lineChanged_moves m c l rfl rfl (fun hl h => h.lineHeld hl ..) fun hl h =>
      h.lineFollowed rfl hl _ _ (lineBits_cts ..)

theorem dcdW_moves : x.chip.Moves m (dcdW c l x).chip := by
  rw [dcdW_eq]
  dsimp only
  split
  · exact .refl m _
  · exact lineChanged_moves m c l rfl rfl (fun hl h => h.lineHeld hl ..) fun hl h =>
      h.lineFollowed rfl hl _ _ (lineBits_dcd ..)

theorem riW_moves : x.chip.Moves m (riW c l x).chip := by
  rw [riW_eq]
  dsimp only
  split
  · exact .refl m _
  · exact lineChanged_moves m c l rfl rfl (fun hl h => h.lineHeld hl ..) fun hl h =>
      h.lineFollowed rfl hl _ _ (lineBits_ri ..)

/-! Receive bit-times (R290 to R296). -/

theorem sampled_moves :
    x.chip.Moves m (x.onCh c fun r => { r with rxErr := if r.rxd then r.rxErr else r.rxErr ||| 0x40#8 }).chip :=
  .data rfl fun h => h.framingFlag

theorem delivered_moves : x.chip.Moves m (delivered c x).chip :=
  ((sampled_moves ..).trans (rxPush_moves ..)).trans (.data rfl fun h => h.rxIn Frame.noConfusion)

theorem rxStep_moves : x.chip.Moves m (rxStep c x).chip := by
  cases hst : (x.chip.ch c).rxState with
  | start =>
    rw [rxStep_start hst, rxStart_eq]
    split
    · exact .data rfl fun h => h.rxStarted
    · exact .refl m _
  | data =>
    rw [rxStep_data hst]
    exact .data rfl fun h => h.shiftIn hst _
  | parity =>
    have hflag : x.chip.Moves m (x.chip.withCh c fun r => { r with rxErr := r.rxErr ||| 0x10#8 }) :=
      .data rfl fun h => h.parityFlag
    rw [rxStep_parity hst, rxParity_eq]
    refine DartChip.Moves.trans ?_ (.data rfl fun h => h.rxIn Frame.noConfusion)
    split
    · split
      · exact hflag.trans (.requested ..)
      · exact hflag
    · exact .refl m _
  | stop =>
    rw [rxStep_stop hst, rxStop_eq]
    split
    · exact delivered_moves ..
    · exact DartChip.Moves.trans (sampled_moves ..) (.data rfl fun h => h.rxIn Frame.noConfusion)
  | stop2 =>
    rw [rxStep_stop2 hst, rxStop2_eq]
    exact delivered_moves ..

/-! Transmit bit-times (R300 to R306). -/

/-- A request does not look at the framing state. -/
theorem requested_withTxState (d : DartChip) (k : BitVec 2) (st : Frame) :
    (d.requested c k).withCh c (fun r => { r with txState := st }) =
      (d.withCh c fun r => { r with txState := st }).requested c k := by
  cases c <;> rfl

theorem txStart_moves : x.chip.Moves m (txStart c x).chip := by
  rw [txStart_eq]
  split
  · rename_i htake
    have htaken : x.chip.Moves m (((x.onCh c fun r =>
        { r with
          txd := false, txShift := r.txData, txBits := 0, txPar := false, rr0 := r.rr0 ||| 0x04#8 }).chip).withCh c
          fun r => { r with txState := .data }) := by
      rw [Act.onCh_chip, DartChip.withCh_eq, DartChip.ch_setCh, DartChip.setCh_setCh]
      exact .data rfl fun h => h.txTaken htake.2
    dsimp only
    split
    · refine (htaken.trans (.requested _ c 0#2)).trans ?_
      rw [← requested_withTxState]
      exact .refl m _
    · exact htaken
  · exact .data rfl fun h => { h with }

/-- The end of a character, from whatever element it is at. -/
theorem finished_moves : x.chip.Moves m (finished c x).chip := by
  unfold finished
  dsimp only
  split
  · rw [Act.onCh_chip, Act.driveTxd_chip, DartChip.ch_setCh, DartChip.setCh_setCh]
    exact .data rfl fun h => { h.txBack with }
  · rename_i hempty
    rw [Bool.not_eq_false] at hempty
    split
    · simp only [Act.onCh_chip, Act.driveTxd_chip, Act.driveRts_chip, DartChip.ch_setCh, DartChip.setCh_setCh]
      exact .data rfl fun h => { h.txAllSent hempty with }
    · simp only [Act.onCh_chip, Act.driveTxd_chip, DartChip.ch_setCh, DartChip.setCh_setCh]
      exact .data rfl fun h => { h.txAllSent hempty with }

/-- An element of a character in flight: the line is driven and the framing state moves on. -/
theorem element_moves (hflight : (x.chip.ch c).txState ≠ .start) {st : Frame} (hst : st ≠ .data) :
    x.chip.Moves m ((x.driveTxd c l).onCh c fun r => { r with txState := st }).chip := by
  rw [Act.onCh_chip, Act.driveTxd_chip, DartChip.ch_setCh, DartChip.setCh_setCh]
  exact .data rfl fun h => h.txIn hflight hst l

theorem txStep_moves : x.chip.Moves m (txStep c x).chip := by
  cases hst : (x.chip.ch c).txState with
  | start =>
    rw [txStep_start hst]
    exact txStart_moves ..
  | data =>
    rw [txStep_data hst, txData, Act.onCh_chip, Act.driveTxd_chip, DartChip.ch_setCh, DartChip.setCh_setCh]
    refine .data ?_ fun h => Channel.Sound.shiftOut { h with } hst
    rfl
  | parity =>
    rw [txStep_parity hst, txParity]
    exact element_moves m c _ x (by simp [hst]) Frame.noConfusion
  | stop =>
    rw [txStep_stop hst, txStop_eq]
    split
    · exact finished_moves ..
    · exact element_moves m c _ x (by simp [hst]) Frame.noConfusion
  | stop2 =>
    rw [txStep_stop2 hst, txStop2_eq]
    exact finished_moves ..

/-! Dividers (R282). -/

theorem rxClock_moves : x.chip.Moves m (rxClock c x).chip := by
  unfold rxClock
  dsimp only
  split
  · exact DartChip.Moves.trans (d' := (x.onCh c fun r => { r with rxDiv := 0 }).chip)
      (.data rfl fun h => h.rxCounted (Nat.zero_lt_succ 63)) (rxStep_moves ..)
  · rename_i hn
    exact .data rfl fun h => h.rxCounted (Nat.lt_of_lt_of_le (Nat.lt_of_not_le hn) (Channel.mult_le _))

theorem txClock_moves : x.chip.Moves m (txClock c x).chip := by
  unfold txClock
  dsimp only
  split
  · exact DartChip.Moves.trans (d' := (x.onCh c fun r => { r with txDiv := 0 }).chip)
      (.data rfl fun h => h.txCounted (Nat.zero_lt_succ 63)) (txStep_moves ..)
  · rename_i hn
    exact .data rfl fun h => h.txCounted (Nat.lt_of_lt_of_le (Nat.lt_of_not_le hn) (Channel.mult_le _))

/-! Acknowledge (R325) and reset (R383). -/

theorem irqAck_moves (d : DartChip) : d.Moves .any d.irqAck.chip := by
  rw [DartChip.irqAck_eq]
  split
  · exact .checked (fun h => { h with }) trivial
  · split
    · exact .checked (fun h => { h with }) trivial
    · exact .refl .any d

theorem resetChannel_moves : x.chip.Moves .released (resetChannel c x).chip := by
  have hfields : x.chip.Moves .released (x.onCh c Channel.resetFields).chip :=
    .setCh ⟨fun _ => Channel.sound_resetFields _, fun _ => rfl, Bool.noConfusion⟩
  refine hfields.trans ?_
  simp only [resetChannel, Act.driveTxd_chip, Act.driveDtr_chip, Act.driveRts_chip, DartChip.ch_setCh,
    DartChip.setCh_setCh]
  exact .data rfl fun h => { h with }

theorem dartReset_moves : x.chip.Moves .released (dartReset x).chip :=
  (resetChannel_moves .a x).trans (resetChannel_moves .b _)

end

end Sys2Proof.Machine
end

section
/-! What a step moves: the invariant and the configuration stand, an instruction changes its own chip only, and service
flags move by the contract only (R20, R99, R332). -/

-- One proof at a time: the check then needs fewer threads, each of which takes part of its memory.
set_option Elab.async false

namespace Sys2Proof.Machine

open Sys2Proof

/-! Either kind of chip. -/

/-- From `c` to `c'`: a chip of the same kind, moved as its kind's relation says. -/
def Chip.Moves (m : Service) : Chip → Chip → Prop
  | .pio c, .pio c' => c.Moves m c'
  | .dart d, .dart d' => d.Moves m d'
  | _, _ => False

theorem Chip.Moves.refl (m : Service) (c : Chip) : c.Moves m c := by
  cases c with
  | pio c => exact PioChip.Moves.refl m c
  | dart d => exact DartChip.Moves.refl m d

theorem PioChip.wellBehaved_iff (c : PioChip) :
    c.wellBehaved = true ↔ c.b.mode ≠ .bidir ∧ ∀ p, requestEnabled (c.port p).ie (c.port p).src = true := by
  have hports : (∀ p, requestEnabled (c.port p).ie (c.port p).src = true) ↔
      requestEnabled c.a.ie c.a.src = true ∧ requestEnabled c.b.ie c.b.src = true :=
    ⟨fun h => ⟨h .a, h .b⟩, fun h p => by cases p <;> [exact h.1; exact h.2]⟩
  simp only [PioChip.wellBehaved, Port.enabled, Bool.and_eq_true, bne_iff_ne, hports, and_assoc]

theorem Chip.wellBehaved_dart_iff (d : DartChip) :
    (Chip.dart d).wellBehaved = true ↔
      ∀ c, (d.ch c).Sound ∧ requestEnabled (d.ch c).enabled (d.ch c).src = true := by
  simp only [Chip.wellBehaved, Bool.and_eq_true, Channel.wellBehaved_iff]
  exact ⟨fun h c => by cases c <;> [exact h.1; exact h.2], fun h => ⟨h .a, h .b⟩⟩

section
variable {m : Service} {c c' : Chip}

/-- Whatever moves, the invariant stands. -/
theorem Chip.Moves.wellBehaved (h : c.Moves m c') (hc : c.wellBehaved = true) : c'.wellBehaved = true := by
  cases c <;> cases c'
  case pio.pio c c' =>
    obtain ⟨hmode, hrequest⟩ := c.wellBehaved_iff.mp hc
    exact c'.wellBehaved_iff.mpr ⟨h.mode hmode, fun p => h.request p (hrequest p)⟩
  case dart.dart d d' =>
    have hall := (Chip.wellBehaved_dart_iff d).mp hc
    exact (Chip.wellBehaved_dart_iff d').mpr fun c => ⟨(h.ch c).sound (hall c).1, (h.ch c).request (hall c).2⟩
  all_goals exact h.elim

theorem Chip.Moves.config (h : c.Moves m c') : c'.config = c.config := by
  cases c <;> cases c'
  case pio.pio c c' => exact congrArg ChipConfig.pio h.cfg
  case dart.dart d d' => exact congrArg ChipConfig.dart h.cfg
  all_goals exact h.elim

theorem Chip.Moves.service (h : c.Moves m c') :
    m.allows c.sources.1.ieo c'.sources.1.ieo ∧ m.allows c.sources.2.ieo c'.sources.2.ieo := by
  cases c <;> cases c'
  case pio.pio c c' => exact ⟨h.service .a, h.service .b⟩
  case dart.dart d d' => exact ⟨(h.ch .a).service, (h.ch .b).service⟩
  all_goals exact h.elim

/-- What moves as `m` allows moves as anything weaker allows. -/
theorem Chip.Moves.weaken {m' : Service} (hm : ∀ b b', m.allows b b' → m'.allows b b') (h : c.Moves m c') :
    c.Moves m' c' := by
  cases c <;> cases c'
  case pio.pio c c' => exact { (h : c.Moves m c') with service := fun p => hm _ _ (PioChip.Moves.service h p) }
  case dart.dart d d' =>
    exact { (h : d.Moves m d') with
      ch := fun c => { DartChip.Moves.ch h c with service := hm _ _ (DartChip.Moves.ch h c).service } }
  all_goals exact h.elim

end

/-! The accesses of a chip, of either kind. -/

section
variable (m : Service) (selC selB : Bool) (v : Byte) (c : Chip)

/-- What a byte written to the control register of side `x` may do to the service flags. -/
def Chip.controlService (x : Side) (v : Byte) : Chip → Service
  | .pio _ => .kept
  | .dart d => Machine.controlService x v d

theorem busWriteOn_control_moves (x : Side) : c.Moves (c.controlService x v) (busWriteOn true x.toBit v c).chip := by
  cases c with
  | pio c =>
    rw [busWriteOn_control_pio]
    exact pioControlWrite_moves .kept x v (Act.begin c)
  | dart d =>
    rw [busWriteOn_control_dart]
    exact dartControlWrite_moves x v (Act.begin d)

theorem busWriteOn_data_moves (x : Side) : c.Moves m (busWriteOn false x.toBit v c).chip := by
  cases c with
  | pio c =>
    rw [busWriteOn_data_pio]
    exact (pioDataWrite_quiet m x v (Act.begin c)).toMoves
  | dart d =>
    rw [busWriteOn_data_dart]
    exact dartDataWrite_moves m x v (Act.begin d)

theorem busReadOn_moves (resets : Bool) : c.Moves m (busReadOn resets selC selB c).chip := by
  obtain ⟨x, rfl⟩ : ∃ x : Side, x.toBit = selB := ⟨Side.ofBit selB, Side.toBit_ofBit selB⟩
  cases c with
  | pio c =>
    cases selC with
    | true => rw [busReadOn_control_pio]; exact (pioDataRead_quiet m x (Act.begin c)).toMoves
    | false => rw [busReadOn_data_pio]; exact (pioDataRead_quiet m x (Act.begin c)).toMoves
  | dart d =>
    cases selC with
    | true => rw [busReadOn_control_dart]; exact dartControlRead_moves m x (Act.begin d) resets
    | false => rw [busReadOn_data_dart]; exact dartDataRead_moves m x (Act.begin d)

/-- A control write takes sources out of service at most. -/
theorem controlService_released (x : Side) {b b' : Bool} (h : (c.controlService x v).allows b b') :
    Service.released.allows b b' := by
  have hcommand (n : BitVec 3) (h : (commandService n x).allows b b') : Service.released.allows b b' := by
    unfold commandService at h
    split at h
    · exact h
    · exact Service.allows_of_kept h
  cases c with
  | pio c => exact Service.allows_of_kept h
  | dart d =>
    simp only [Chip.controlService, Machine.controlService] at h
    split at h
    · exact hcommand _ h
    · exact Service.allows_of_kept h

/-- What a bus write may do to the service flags, whatever the state of the chip. -/
def busWriteService (selC : Bool) : Service := if selC then .released else .kept

theorem busWriteOn_moves : c.Moves (busWriteService selC) (busWriteOn selC selB v c).chip := by
  obtain ⟨x, rfl⟩ : ∃ x : Side, x.toBit = selB := ⟨Side.ofBit selB, Side.toBit_ofBit selB⟩
  cases selC with
  | true => exact (busWriteOn_control_moves v c x).weaken fun _ _ => controlService_released v c x
  | false => exact busWriteOn_data_moves .kept v c x

theorem Chip.irqAck_moves : c.Moves .any c.irqAck.chip := by
  cases c with
  | pio c => exact c.irqAck_quiet.toMoves
  | dart d => exact Machine.irqAck_moves d

theorem Chip.irqReti_moves : c.Moves .released c.irqReti.chip := by
  cases c with
  | pio c => exact (PioChip.irqReti_quiet (Act.begin c)).toMoves
  | dart d => exact Machine.irqReti_moves (Act.begin d)

theorem resetOn_moves : c.Moves .released (resetOn c).chip := by
  cases c with
  | pio c => exact pioReset_moves (Act.begin c)
  | dart d => exact dartReset_moves (Act.begin d)

end

/-! Chip by chip over the chain. -/

/-- From `s` to `t`: every chip is related to the one that stood at its position, the pointer parameter stands, and the
trace grows. -/
structure State.Each (P : Chip → Chip → Prop) (s t : State) : Prop where
  chips : List.Forall₂ P s.chips t.chips
  readResetsPtr : t.readResetsPtr = s.readResetsPtr
  trace : ∃ es, t.trace = s.trace ++ es

theorem forall₂_set {P : Chip → Chip → Prop} (hrefl : ∀ c, P c c) {l : List Chip} {k : Nat} {c c' : Chip}
    (hc : l[k]? = some c) (h : P c c') : List.Forall₂ P l (l.set k c') := by
  induction l generalizing k with
  | nil => exact .nil
  | cons d l ih =>
    cases k with
    | zero =>
      obtain rfl : d = c := by simpa using hc
      exact .cons h (List.forall₂_same.mpr fun c _ => hrefl c)
    | succ k => exact .cons (hrefl d) (ih (by simpa using hc))

section
variable {P : Chip → Chip → Prop} {l l' : List Chip} (h : List.Forall₂ P l l')
include h

theorem rel_of_getElem? {k : Nat} {c c' : Chip} (hc : l[k]? = some c) (hc' : l'[k]? = some c') : P c c' := by
  induction h generalizing k with
  | nil => cases hc
  | cons hd _ ih =>
    cases k with
    | zero =>
      cases hc
      cases hc'
      exact hd
    | succ k => exact ih hc hc'

theorem exists_rel_of_mem {c' : Chip} (hc' : c' ∈ l') : ∃ c ∈ l, P c c' := by
  induction h with
  | nil => cases hc'
  | cons hd _ ih =>
    rcases List.mem_cons.mp hc' with rfl | hrest
    · exact ⟨_, List.mem_cons_self, hd⟩
    · obtain ⟨c, hc, hP⟩ := ih hrest
      exact ⟨c, List.mem_cons_of_mem _ hc, hP⟩

theorem map_eq_of_rel {β : Type} {f : Chip → β} (hf : ∀ c c', P c c' → f c' = f c) : l'.map f = l.map f := by
  induction h with
  | nil => rfl
  | cons hd _ ih => rw [List.map_cons, List.map_cons, hf _ _ hd, ih]

end

section
variable {P : Chip → Chip → Prop} (hrefl : ∀ c, P c c) {s t : State} {k : Nat}
include hrefl

/-- The chain stands. -/
theorem State.Each.of_chips_eq (hchips : t.chips = s.chips) (hptr : t.readResetsPtr = s.readResetsPtr)
    (htrace : ∃ es, t.trace = s.trace ++ es) : s.Each P t :=
  ⟨by rw [hchips]; exact List.forall₂_same.mpr fun c _ => hrefl c, hptr, htrace⟩

theorem State.each_commit {c : Chip} {x : Act Chip} (hc : s.chips[k]? = some c) (h : P c x.chip) :
    s.Each P (s.commit k x) := ⟨forall₂_set hrefl hc h, rfl, _, rfl⟩

theorem onChip_each {f : Chip → Act Chip} (hf : ∀ c, s.chips[k]? = some c → P c (f c).chip)
    (h : onChip k s f = .next t) : s.Each P t := by
  obtain ⟨c, hc, rfl⟩ := onChip_next h
  exact State.each_commit hrefl hc (hf c hc)

theorem onPio_each {f : PioChip → Act PioChip} (hf : ∀ c, s.hasPio k c → P (.pio c) (.pio (f c).chip))
    (h : onPio k s f = .next t) : s.Each P t := by
  obtain ⟨c, hc, rfl⟩ := onPio_next h
  exact State.each_commit hrefl hc (hf c hc)

theorem onDart_each {f : DartChip → Act DartChip} (hf : ∀ d, s.hasDart k d → P (.dart d) (.dart (f d).chip))
    (h : onDart k s f = .next t) : s.Each P t := by
  obtain ⟨d, hd, rfl⟩ := onDart_next h
  exact State.each_commit hrefl hd (hf d hd)

end

/-- An acknowledge of the chain is the acknowledge of the chip it selects, and nothing without one. -/
theorem execChainAck_each {P : Chip → Chip → Prop} (hrefl : ∀ c, P c c) (hack : ∀ c : Chip, P c c.irqAck.chip)
    {s t : State} (h : execChainAck s = .next t) : s.Each P t := by
  unfold execChainAck at h
  split at h
  · exact onChip_each hrefl (fun c _ => hack c) h
  · cases h
    exact .of_chips_eq hrefl rfl rfl ⟨[], (List.append_nil _).symm⟩

/-- A return of the chain is the return of the chip it selects, and only a diagnostic without one. -/
theorem execChainReti_each {P : Chip → Chip → Prop} (hrefl : ∀ c, P c c) (hreti : ∀ c : Chip, P c c.irqReti.chip)
    {s t : State} (h : execChainReti s = .next t) : s.Each P t := by
  unfold execChainReti at h
  split at h
  · exact onChip_each hrefl (fun c _ => hreti c) h
  · cases h
    exact .of_chips_eq hrefl rfl rfl ⟨_, rfl⟩

/-! Every access. -/

/-- What a byte written to the control register at position `k` may do to the service flags. -/
def State.controlService (s : State) (k : Nat) (x : Side) (v : Byte) : Service :=
  ((s.chips[k]?).map (Chip.controlService x v)).getD .kept

/-- What an operation may do to the service flags. -/
def State.service (s : State) : Request → Service
  | .busWord _ [_, b] => busWriteService (b.getLsbD 1)
  | .write _ _ _ => .released
  | .controlWrite k x v => s.controlService k x v
  | .irqAck _ => .any
  | .chainAck => .any
  | .irqReti _ => .released
  | .chainReti => .released
  | .reset _ => .released
  | _ => .kept

theorem accessOf_each {s t : State} {r : Request} (h : accessOf r s = .next t) :
    s.Each (Chip.Moves (s.service r)) t := by
  have hrefl := Chip.Moves.refl (s.service r)
  cases r with
  | busWord k bs =>
    match bs with
    | [] => cases h
    | [b] => exact onChip_each hrefl (fun c _ => busReadOn_moves .kept _ _ c _) h
    | [v, b] => exact onChip_each hrefl (fun c _ => busWriteOn_moves _ _ v c) h
    | _ :: _ :: _ :: _ => cases h
  | write k off v =>
    refine onChip_each hrefl (fun c _ => (busWriteOn_moves _ _ v c).weaken fun _ _ hb => ?_) h
    unfold busWriteService at hb
    split at hb
    · exact hb
    · exact Service.allows_of_kept hb
  | read k off => exact onChip_each hrefl (fun c _ => busReadOn_moves .kept _ _ c _) h
  | controlWrite k x v =>
    refine onChip_each hrefl (fun c hc => ?_) h
    have hservice : s.controlService k x v = c.controlService x v := by rw [State.controlService, hc]; rfl
    change c.Moves (s.controlService k x v) _
    rw [hservice]
    exact busWriteOn_control_moves v c x
  | controlRead k x => exact onChip_each hrefl (fun c _ => busReadOn_moves .kept _ _ c _) h
  | dataWrite k x v => exact onChip_each hrefl (fun c _ => busWriteOn_data_moves .kept v c x) h
  | dataRead k x => exact onChip_each hrefl (fun c _ => busReadOn_moves .kept _ _ c _) h
  | strobe k p l => exact onPio_each hrefl (fun c _ => (pioStrobe_quiet .kept p l (Act.begin c)).toMoves) h
  | pollTick k =>
    exact onPio_each hrefl (fun c _ =>
      ((pollPort_quiet .kept .a (Act.begin c)).trans (pollPort_quiet .kept .b _)).toMoves) h
  | receiveData k c v => exact onDart_each hrefl (fun d _ => rxPush_moves .kept c v 0x00#8 (Act.begin d)) h
  | ctsW k c l => exact onDart_each hrefl (fun d _ => ctsW_moves .kept c l (Act.begin d)) h
  | dcdW k c l => exact onDart_each hrefl (fun d _ => dcdW_moves .kept c l (Act.begin d)) h
  | riW k c l => exact onDart_each hrefl (fun d _ => riW_moves .kept c l (Act.begin d)) h
  | rxcaW k => exact onDart_each hrefl (fun d _ => rxClock_moves .kept .a (Act.begin d)) h
  | txcaW k => exact onDart_each hrefl (fun d _ => txClock_moves .kept .a (Act.begin d)) h
  | rxtxcbW k =>
    exact onDart_each hrefl (fun d _ =>
      (rxClock_moves .kept .b (Act.begin d)).trans (txClock_moves .kept .b _)) h
  | irqState k => exact onChip_each hrefl (fun c _ => hrefl c) h
  | irqAck k => exact onChip_each hrefl (fun c _ => c.irqAck_moves) h
  | irqReti k => exact onChip_each hrefl (fun c _ => c.irqReti_moves) h
  | chainInt =>
    cases h
    exact .of_chips_eq hrefl rfl rfl ⟨[], (List.append_nil _).symm⟩
  | chainAck => exact execChainAck_each hrefl (fun c => c.irqAck_moves) h
  | chainReti => exact execChainReti_each hrefl (fun c => c.irqReti_moves) h
  | reset k => exact onChip_each hrefl (fun c _ => resetOn_moves c) h

/-! Environment changes. -/

theorem setPins_each {s t : State} {k : Nat} {p : Side} {v : Byte} (h : setPins k p v s = .next t) :
    s.Each (Chip.Moves .any) t := by
  unfold setPins at h
  split at h
  · rename_i c hc
    cases h
    have hpins : c.Quiet .any (c.setPort p { c.port p with pins := v }) := .setPort rfl
    exact ⟨forall₂_set (.refl .any) hc hpins.toMoves, rfl, [], (List.append_nil _).symm⟩
  · cases h
  · cases h

theorem setRxd_each {s t : State} {k : Nat} {c : Side} {l : Level} (h : setRxd k c l s = .next t) :
    s.Each (Chip.Moves .any) t := by
  unfold setRxd at h
  split at h
  · rename_i d hd
    cases h
    have hrxd : d.Moves .any (d.setCh c { d.ch c with rxd := l }) := .data rfl fun h => { h with }
    exact ⟨forall₂_set (.refl .any) hd hrxd, rfl, [], (List.append_nil _).symm⟩
  · cases h
  · cases h

theorem timerTick_each {s t : State} {k : Nat} {rate : DartConfig → Nat} {pulse : Act DartChip → Act DartChip}
    (hpulse : ∀ x : Act DartChip, x.chip.Moves .any (pulse x).chip) (h : timerTick k rate pulse s = .next t) :
    s.Each (Chip.Moves .any) t := by
  unfold timerTick at h
  split at h
  · split at h
    · cases h
    · exact onDart_each (.refl .any) (fun d _ => hpulse (Act.begin d)) h
  · cases h
  · cases h

theorem perform_each {s t : State} {e : EnvEvent} (h : perform e s = .next t) : s.Each (Chip.Moves .any) t := by
  cases e with
  | setPins k p v => exact setPins_each h
  | setRxd k c l => exact setRxd_each h
  | rxTimer k c => exact timerTick_each (rate := fun g => DartConfig.rxHz g c) (rxClock_moves .any c) h
  | txTimer k c => exact timerTick_each (rate := fun g => DartConfig.txHz g c) (txClock_moves .any c) h

/-! Every step. -/

theorem State.Each.mono {P Q : Chip → Chip → Prop} {s t : State} (h : s.Each P t) (hPQ : ∀ c c', P c c' → Q c c') :
    s.Each Q t := { h with chips := h.chips.imp hPQ }

/-- The chips before and after a step, one by one. -/
theorem step_each {s t : State} (h : step s = .next t) : s.Each (Chip.Moves .any) t := by
  unfold step at h
  split at h
  · cases h
    exact .of_chips_eq (.refl .any) rfl rfl ⟨[], (List.append_nil _).symm⟩
  · rename_i r rest hs
    unfold runRequest at h
    split at h
    · rename_i i hi
      rw [exec_of_decodeRequest hi] at h
      exact { (accessOf_each h).mono (Q := Chip.Moves .any) fun _ _ => Chip.Moves.weaken fun _ _ _ => trivial with }
    · cases h
  · exact { perform_each h with }

/-! The whole-machine rules. -/

/-- Settles O59: the invariant is one of each chip, and no step breaks it on any. -/
theorem stepKeepsWellBehaved : Obligations.StepKeepsWellBehaved := by
  intro s t hs h
  rw [State.wellBehaved, List.all_eq_true] at hs ⊢
  intro c' hc'
  obtain ⟨c, hc, hmoves⟩ := exists_rel_of_mem (step_each h).chips hc'
  exact hmoves.wellBehaved (hs c hc)

/-- An operation on the chip at `k` leaves the other positions alone. -/
theorem getElem?_commit_of_ne {s : State} {k j : Nat} {x : Act Chip} (hj : j ≠ k) :
    (s.commit k x).chips[j]? = s.chips[j]? := by
  rw [State.commit_chips, List.getElem?_set_ne (Ne.symm hj)]

theorem onChip_other {s t : State} {k j : Nat} {f : Chip → Act Chip} (h : onChip k s f = .next t) (hj : j ≠ k) :
    t.chips[j]? = s.chips[j]? := by
  obtain ⟨c, -, rfl⟩ := onChip_next h
  exact getElem?_commit_of_ne hj

theorem onPio_other {s t : State} {k j : Nat} {f : PioChip → Act PioChip} (h : onPio k s f = .next t) (hj : j ≠ k) :
    t.chips[j]? = s.chips[j]? := by
  obtain ⟨c, -, rfl⟩ := onPio_next h
  exact getElem?_commit_of_ne hj

theorem onDart_other {s t : State} {k j : Nat} {f : DartChip → Act DartChip} (h : onDart k s f = .next t)
    (hj : j ≠ k) : t.chips[j]? = s.chips[j]? := by
  obtain ⟨d, -, rfl⟩ := onDart_next h
  exact getElem?_commit_of_ne hj

theorem wholeChain_cases {i : Instr} (h : i.operand = .wholeChain) :
    i = .chainInt ∨ i = .chainAck ∨ i = .chainReti := by
  cases i with
  | chainInt => exact .inl rfl
  | chainAck => exact .inr (.inl rfl)
  | chainReti => exact .inr (.inr rfl)
  | _ => cases h

/-- The acknowledge of the chain leaves alone what the chain does not select. -/
theorem chainAck_other {s t : State} {j : Nat} (h : exec .chainAck s = .next t) (hj : s.requester ≠ some j) :
    t.chips[j]? = s.chips[j]? := by
  cases hk : s.requester with
  | none =>
    rw [exec_chainAck_none hk] at h
    cases h
    rfl
  | some k =>
    rw [exec_chainAck_some hk] at h
    exact onChip_other h fun hjk => hj (hjk ▸ hk)

theorem chainReti_other {s t : State} {j : Nat} (h : exec .chainReti s = .next t) (hj : s.served ≠ some j) :
    t.chips[j]? = s.chips[j]? := by
  cases hk : s.served with
  | none =>
    rw [exec_chainReti_none hk] at h
    cases h
    rfl
  | some k =>
    rw [exec_chainReti_some hk] at h
    exact onChip_other h fun hjk => hj (hjk ▸ hk)

/-- Settles O60: an instruction's meaning is an operation on its chip, or on the one the chain selects; the rest is what
every step keeps. -/
theorem chipsOwnTheirState : Obligations.ChipsOwnTheirState := by
  refine ⟨fun s t i j h hj => ?_, fun s t h => ?_⟩
  · have hacts := exec_actsIn i s
    cases ho : i.operand with
    | anyChip k =>
      rw [ho] at hj hacts
      obtain ⟨f, hf⟩ := hacts
      exact onChip_other (hf.symm.trans h) hj
    | pioChip k =>
      rw [ho] at hj hacts
      obtain ⟨f, hf⟩ := hacts
      exact onPio_other (hf.symm.trans h) hj
    | dartChip k =>
      rw [ho] at hj hacts
      obtain ⟨f, hf⟩ := hacts
      exact onDart_other (hf.symm.trans h) hj
    | wholeChain =>
      rw [ho] at hj
      obtain ⟨hack, hreti⟩ := hj
      rcases wholeChain_cases ho with rfl | rfl | rfl
      · cases h
        rfl
      · exact chainAck_other h (hack rfl)
      · exact chainReti_other h (hreti rfl)
  · have heach := step_each h
    exact ⟨map_eq_of_rel heach.chips fun _ _ => Chip.Moves.config, heach.readResetsPtr, heach.trace⟩

/-- An instruction that completes found its chip. -/
theorem inChain_of_next {s t : State} {i : Instr} (h : exec i s = .next t) : i.operand.inChain s.views = true := by
  have hacts := exec_actsIn i s
  rw [h] at hacts
  cases ho : i.operand with
  | anyChip k =>
    rw [ho] at hacts
    obtain ⟨f, hf⟩ := hacts
    obtain ⟨c, hc, -⟩ := onChip_next hf.symm
    exact inChain_anyChip.mpr ⟨c, hc⟩
  | pioChip k =>
    rw [ho] at hacts
    obtain ⟨f, hf⟩ := hacts
    obtain ⟨c, hc, -⟩ := onPio_next hf.symm
    exact inChain_pioChip.mpr ⟨c, hc⟩
  | dartChip k =>
    rw [ho] at hacts
    obtain ⟨f, hf⟩ := hacts
    obtain ⟨d, hd, -⟩ := onDart_next hf.symm
    exact inChain_dartChip.mpr ⟨d, hd⟩
  | wholeChain => rfl

/-- What a completed instruction may do to the service flags is what its operation may. -/
theorem exec_each {s t : State} {i : Instr} (h : exec i s = .next t) :
    s.Each (Chip.Moves (s.service (requestOf i))) t :=
  accessOf_each ((exec_of_inChain (inChain_of_next h)).symm.trans h)

/-! The service flags (R332 b). -/

/-- Any operation but an acknowledge takes sources out of service at most. -/
theorem service_released {s : State} {r : Request} (hchip : ∀ k, r ≠ .irqAck k) (hchain : r ≠ .chainAck) {b b' : Bool}
    (h : (s.service r).allows b b') : Service.released.allows b b' := by
  have hbus {selC : Bool} (h : (busWriteService selC).allows b b') : Service.released.allows b b' := by
    cases selC with
    | true => exact h
    | false => exact Service.allows_of_kept h
  cases r with
  | busWord k bs =>
    match bs with
    | [] | [_] | _ :: _ :: _ :: _ => exact Service.allows_of_kept h
    | [_, _] => exact hbus h
  | controlWrite k x v =>
    change (s.controlService k x v).allows b b' at h
    unfold State.controlService at h
    cases hc : s.chips[k]? with
    | none =>
      rw [hc] at h
      exact Service.allows_of_kept h
    | some c =>
      rw [hc] at h
      exact controlService_released v c x h
  | irqAck k => exact absurd rfl (hchip k)
  | chainAck => exact absurd rfl hchain
  | write | irqReti | chainReti | reset => exact h
  | _ => exact Service.allows_of_kept h

theorem acknowledges_of_requestOf {i : Instr} (h : (∃ k, requestOf i = .irqAck k) ∨ requestOf i = .chainAck) :
    acknowledges i = true := by
  cases i with
  | irqAck k => rfl
  | chainAck => rfl
  | _ => rcases h with ⟨_, h⟩ | h <;> cases h

/-- Only an acknowledge is allowed to put a source under service. -/
theorem service_of_notAck {s : State} {i : Instr} (hi : acknowledges i = false) {b b' : Bool}
    (h : (s.service (requestOf i)).allows b b') : Service.released.allows b b' :=
  service_released (fun k hk => Bool.noConfusion (hi.symm.trans (acknowledges_of_requestOf (.inl ⟨k, hk⟩))))
    (fun hk => Bool.noConfusion (hi.symm.trans (acknowledges_of_requestOf (.inr hk)))) h

/-! Control writes that keep the service flags. -/

section
variable {s : State} {k : Nat} {x : Side} {v : Byte}

theorem service_controlWrite_pio (h : (Operand.pioChip k).inChain s.views = true) :
    s.service (.controlWrite k x v) = .kept := by
  obtain ⟨c, hc⟩ := inChain_pioChip.mp h
  rw [State.service, State.controlService, show s.chips[k]? = some (.pio c) from hc]
  rfl

/-- A command that is no return and no Channel-reset of channel A, wherever the pointer is. -/
theorem service_controlWrite_command (h : commandReleases (wr0Cmd v) x = false) :
    s.service (.controlWrite k x v) = .kept := by
  rw [State.service, State.controlService]
  cases s.chips[k]? with
  | none => rfl
  | some c =>
    cases c with
    | pio c => rfl
    | dart d =>
      change (if (d.ch x).ptr = 0#3 then commandService (wr0Cmd v) x else .kept) = _
      rw [commandService, h, if_neg Bool.false_ne_true, ite_self]

/-- A write at a pointer other than 0. -/
theorem service_controlWrite_register {n : BitVec 3} (h : ∃ view, s.views[k]? = some view ∧ view.ptrIs x n = true)
    (hn : n ≠ 0#3) : s.service (.controlWrite k x v) = .kept := by
  obtain ⟨view, hview, hptr⟩ := h
  rw [State.views_getElem?] at hview
  obtain ⟨c, hc, rfl⟩ := Option.map_eq_some_iff.mp hview
  rw [State.service, State.controlService, hc]
  cases c with
  | pio c => rfl
  | dart d =>
    have hp : (d.ch x).ptr = n := by cases x <;> simpa [ChipView.ptrIs, Chip.view, Side.pick] using hptr
    exact if_neg (hp ▸ hn)

end

/-- A row that its chip selects and that is neither an acknowledge, nor a return, a reset or a control-register bus
write keeps the flags. -/
theorem service_of_selected {s : State} {i : Instr} (hack : acknowledges i = false) (hrel : releases i = false)
    (hsel : i.selectedIn s.views = true) : s.service (requestOf i) = .kept := by
  have hchip := selectedIn_inChain hsel
  cases i with
  | irqAck | chainAck => cases hack
  | irqReti | chainReti | resetPio | resetDart | dartWr0ReturnFromInt => cases hrel
  | busWrite k selC selB v =>
    obtain rfl : selC = false := hrel
    cases selB <;> rfl
  | pioVectorWord | pioModeOutput | pioModeInput | pioModeBidir | pioModeBitctl | pioIntControlWord | pioReserved1
  | pioReserved3 | pioReserved5 | pioReserved9 | pioReservedB | pioReservedD | pioDirectionByte | pioMaskByte =>
    exact service_controlWrite_pio hchip
  | dartWr0Null k c f n | dartWr0Cmd1 k c f n | dartWr0ResetExtStatus k c f n | dartWr0EnableIntNextRx k c f n
  | dartWr0Cmd5 k c f n | dartWr0ErrorReset k c f n =>
    exact service_controlWrite_command ((congrArg (commandReleases · c) (wr0Byte_cmd f _ n)).trans rfl)
  | dartWr0ChannelReset k c f n =>
    obtain rfl : c = .b := by cases c <;> [cases hrel; rfl]
    exact service_controlWrite_command ((congrArg (commandReleases · .b) (wr0Byte_cmd f 3#3 n)).trans rfl)
  | dartWr1 | dartWr2 | dartWr3 | dartWr4 | dartWr5 =>
    exact service_controlWrite_register (selectedIn_row rfl hsel) (by decide)
  | dartWr6Wr7Discard k c v =>
    obtain ⟨view, hview, hptr⟩ := selectedIn_row (i := .dartWr6Wr7Discard k c v) rfl hsel
    rcases Bool.or_eq_true_iff.mp hptr with h | h
    · exact service_controlWrite_register ⟨view, hview, h⟩ (by decide)
    · exact service_controlWrite_register ⟨view, hview, h⟩ (by decide)
  | _ => rfl

/-- Settles O56: what the operation of a completed instruction may do to the flags. -/
theorem serviceFlagsMoveOnlyByContract : Obligations.ServiceFlagsMoveOnlyByContract := by
  intro s t i h
  have heach := exec_each h
  refine ⟨fun hack k c c' hc hc' => ?_, fun hack hrel hsel => ?_⟩
  · obtain ⟨ha, hb⟩ := (rel_of_getElem? heach.chips hc hc').service
    exact ⟨service_of_notAck hack ha, service_of_notAck hack hb⟩
  · refine map_eq_of_rel heach.chips fun c c' hmoves => ?_
    rw [service_of_selected hack hrel hsel] at hmoves
    obtain ⟨ha, hb⟩ := hmoves.service
    exact Prod.ext ha hb

end Sys2Proof.Machine
end

section
/-! The PIO decode state as a sequence: control writes and resets move it, nothing else does (R151, R380). -/

-- One proof at a time: the check then needs fewer threads, each of which takes part of its memory.
set_option Elab.async false

namespace Sys2Proof.Machine

open Sys2Proof

/-! A control write (R150, R151). -/

/-- The decode state after a byte in NORMAL, by the byte's fields: the mode word of Bit-Control mode asks for a
direction byte, an interrupt control word with mask-follows for a mask byte. -/
theorem cws_of_byte (v : Byte) :
    (if v &&& 0xCF#8 = 0xCF#8 then Cws.setDir else if v &&& 0x1F#8 = 0x17#8 then .setMask else .normal) =
      if v.getLsbD 0 = false then .normal
      else if v.extractLsb' 0 4 = 0xF#4 then (if v.extractLsb' 6 2 = 0b11#2 then .setDir else .normal)
      else if v.extractLsb' 0 4 = 0x7#4 then (if v.getLsbD 4 = true then .setMask else .normal)
      else .normal := by
  revert v
  decide

section
variable (p : Side) (v : Byte) (x : Act PioChip)

theorem cws_modeWord (h : (x.chip.port p).cws = .normal) :
    ((modeWord p v x).chip.port p).cws = if v.extractLsb' 6 2 = 0b11#2 then .setDir else .normal := by
  rcases modeField_cases (v.extractLsb' 6 2) with hm | hm | hm | hm
  · simp [modeWord, hm, h]
  · simp [modeWord, hm, h]
  · cases p <;> simpa [modeWord, hm] using h
  · simp [modeWord, hm]

theorem cws_intControlWord (h : (x.chip.port p).cws = .normal) :
    ((intControlWord p v x).chip.port p).cws = if v.getLsbD 4 = true then .setMask else .normal := by
  rw [intControlWord_chip]
  split
  · rw [PioChip.withPort_eq, PioChip.port_setPort]
  · rw [PioChip.cws_checkInterrupt, PioChip.withPort_eq, PioChip.port_setPort]
    exact h

/-- The decode state after any byte (R151). -/
theorem cws_pioControlWrite :
    ((pioControlWrite p v x).chip.port p).cws =
      if (x.chip.port p).cws ≠ .normal then .normal
      else if v &&& 0xCF#8 = 0xCF#8 then .setDir
      else if v &&& 0x1F#8 = 0x17#8 then .setMask
      else .normal := by
  rw [cws_of_byte]
  cases hw : (x.chip.port p).cws with
  | setDir =>
    rw [pioControlWrite_setDir hw, directionByte_chip, PioChip.withPort_eq, PioChip.port_setPort, if_pos (by decide)]
  | setMask =>
    rw [pioControlWrite_setMask hw, maskByte_chip, PioChip.cws_checkInterrupt, PioChip.withPort_eq,
      PioChip.port_setPort, if_pos (by decide)]
  | normal =>
    rw [if_neg (not_not_intro rfl)]
    cases h0 : v.getLsbD 0 with
    | false =>
      rw [pioControlWrite_even hw h0, vectorWord_chip, PioChip.withPort_eq, PioChip.port_setPort, if_pos rfl]
      exact hw
    | true =>
      rw [pioControlWrite_odd hw h0, if_neg (show ¬ true = false from Bool.noConfusion)]
      split
      · exact cws_modeWord p v x hw
      · split
        · exact cws_intControlWord p v x hw
        · exact hw

/-- A control write leaves the other port alone, but for what the arbiter does to its source. -/
theorem cws_pioControlWrite_other {p' : Side} (hp : p' ≠ p) :
    ((pioControlWrite p v x).chip.port p').cws = (x.chip.port p').cws := by
  have hset (q : Port) : ((x.chip.setPort p q).port p').cws = (x.chip.port p').cws := by
    rw [PioChip.port_setPort_of_ne _ _ _ _ hp]
  unfold pioControlWrite
  split
  · exact hset _
  · exact (PioChip.cws_checkInterrupt ..).trans (hset _)
  · split_ifs
    · exact hset _
    · unfold modeWord
      split
      · rw [modeOutput_chip]
        exact hset _
      · exact hset _
      · cases p with
        | a => exact hset _
        | b => rfl
      · exact hset _
    · rw [intControlWord_chip]
      split
      · exact hset _
      · exact (PioChip.cws_checkInterrupt ..).trans (hset _)
    · rfl

end

/-! The other operations. -/

/-- The decode states of a PIO stand. -/
def Chip.SameCws : Chip → Chip → Prop
  | .pio c, .pio c' => ∀ p, (c'.port p).cws = (c.port p).cws
  | _, _ => True

theorem Chip.SameCws.refl (c : Chip) : c.SameCws c := by
  cases c with
  | pio c => exact fun _ => rfl
  | dart d => trivial

theorem sameCws_busWriteOn_data (x : Side) (v : Byte) (c : Chip) : c.SameCws (busWriteOn false x.toBit v c).chip := by
  cases c with
  | pio c =>
    rw [busWriteOn_data_pio]
    exact (pioDataWrite_quiet .kept x v (Act.begin c)).cws
  | dart d => trivial

theorem sameCws_busReadOn (resets selC selB : Bool) (c : Chip) : c.SameCws (busReadOn resets selC selB c).chip := by
  cases c with
  | pio c =>
    cases selC <;> exact (pioDataRead_quiet .kept (Side.ofBit selB) (Act.begin c)).cws
  | dart d => trivial

theorem sameCws_irqAck (c : Chip) : c.SameCws c.irqAck.chip := by
  cases c with
  | pio c => exact c.irqAck_quiet.cws
  | dart d => trivial

theorem sameCws_irqReti (c : Chip) : c.SameCws c.irqReti.chip := by
  cases c with
  | pio c => exact (PioChip.irqReti_quiet (Act.begin c)).cws
  | dart d => trivial

/-- An operation that leaves the chip at `k` alone keeps its decode states. -/
theorem sameCws_of_getElem?_eq {s t : State} {k : Nat} {c c' : PioChip} (hc : s.hasPio k c) (hc' : t.hasPio k c')
    (h : t.chips[k]? = s.chips[k]?) (p : Side) : (c'.port p).cws = (c.port p).cws := by
  obtain rfl : c' = c := Chip.pio.inj (Option.some.inj (hc'.symm.trans (h.trans hc)))
  rfl

/-- No operation but a control write, a reset or a bus access that may be a control write moves a decode state. -/
theorem sameCws_access {s t : State} {k : Nat} {c c' : PioChip} (hc : s.hasPio k c) (hc' : t.hasPio k c') {r : Request}
    (hcontrol : ∀ p v, r ≠ .controlWrite k p v) (hreset : r ≠ .reset k) (hword : ∀ bs, r ≠ .busWord k bs)
    (hwrite : ∀ off v, r ≠ .write k off v) (h : accessOf r s = .next t) (p : Side) :
    (c'.port p).cws = (c.port p).cws := by
  have heach (he : s.Each Chip.SameCws t) : (c'.port p).cws = (c.port p).cws :=
    (rel_of_getElem? he.chips hc hc' : Chip.SameCws (.pio c) (.pio c')) p
  have hrefl := Chip.SameCws.refl
  cases r with
  | controlWrite j x v =>
    exact sameCws_of_getElem?_eq hc hc' (onChip_other h fun hj => hcontrol x v (hj ▸ rfl)) p
  | reset j => exact sameCws_of_getElem?_eq hc hc' (onChip_other h fun hj => hreset (hj ▸ rfl)) p
  | write j off v => exact sameCws_of_getElem?_eq hc hc' (onChip_other h fun hj => hwrite off v (hj ▸ rfl)) p
  | busWord j bs =>
    refine sameCws_of_getElem?_eq hc hc' ?_ p
    have hj : k ≠ j := fun hj => hword bs (hj ▸ rfl)
    match bs with
    | [] => cases h
    | [b] => exact onChip_other h hj
    | [v, b] => exact onChip_other h hj
    | _ :: _ :: _ :: _ => cases h
  | read j off => exact heach (onChip_each hrefl (fun c _ => sameCws_busReadOn _ _ _ c) h)
  | controlRead j x => exact heach (onChip_each hrefl (fun c _ => sameCws_busReadOn _ _ _ c) h)
  | dataRead j x => exact heach (onChip_each hrefl (fun c _ => sameCws_busReadOn _ _ _ c) h)
  | dataWrite j x v => exact heach (onChip_each hrefl (fun c _ => sameCws_busWriteOn_data x v c) h)
  | strobe j q l => exact heach (onPio_each hrefl (fun c _ => (pioStrobe_quiet .kept q l (Act.begin c)).cws) h)
  | pollTick j =>
    exact heach (onPio_each hrefl (fun c _ =>
      ((pollPort_quiet .kept .a (Act.begin c)).trans (pollPort_quiet .kept .b _)).cws) h)
  | irqState j => exact heach (onChip_each hrefl (fun c _ => hrefl c) h)
  | irqAck j => exact heach (onChip_each hrefl (fun c _ => sameCws_irqAck c) h)
  | irqReti j => exact heach (onChip_each hrefl (fun c _ => sameCws_irqReti c) h)
  | chainInt =>
    cases h
    exact heach (.of_chips_eq hrefl rfl rfl ⟨[], (List.append_nil _).symm⟩)
  | chainAck => exact heach (execChainAck_each hrefl sameCws_irqAck h)
  | chainReti => exact heach (execChainReti_each hrefl sameCws_irqReti h)
  | _ => exact heach (onDart_each hrefl (fun _ _ => trivial) h)

/-! The obligation. -/

/-- A PIO found after a committed operation on it is the operation's. -/
theorem chip_of_commit {s : State} {k : Nat} {c c' : PioChip} {x : Act Chip} (hc : s.hasPio k c)
    (hc' : (s.commit k x).hasPio k c') : x.chip = .pio c' := by
  have hk : k < s.chips.length := (List.getElem?_eq_some_iff.mp hc).1
  exact Option.some.inj ((List.getElem?_set_self hk).symm.trans hc')

/-- Settles O17: the control write moves the decode state by the byte, the other operations do not, reset clears it. -/
theorem decodeStateSequence : Obligations.DecodeStateSequence := by
  intro s t k c c' hc hc'
  refine ⟨fun p v h => ?_, fun r i hcontrol hreset hword hwrite hi h => ?_, fun h => ?_⟩
  · replace h : onChip k s (busWriteOn true p.toBit v) = .next t := h
    rw [onChip_of_get hc, busWriteOn_control_pio] at h
    injection h with h
    obtain rfl : (pioControlWrite p v (Act.begin c)).chip = c' := Chip.pio.inj (chip_of_commit hc (h ▸ hc'))
    exact ⟨cws_pioControlWrite p v (Act.begin c), fun p' hp => cws_pioControlWrite_other p v (Act.begin c) hp⟩
  · rw [exec_of_decodeRequest hi] at h
    have hsame := sameCws_access hc hc' hcontrol hreset hword hwrite h
    exact ⟨hsame .a, hsame .b⟩
  · replace h : onPio k s (fun c => pioReset (Act.begin c)) = .next t := h
    rw [onPio_of_hasPio hc] at h
    injection h with h
    obtain rfl : (pioReset (Act.begin c)).chip = c' := Chip.pio.inj (chip_of_commit hc (h ▸ hc'))
    exact ⟨rfl, rfl⟩

end Sys2Proof.Machine
end
